-- ==== Sys2Proof/Word.lean ====
section
/-! DEFINITION. The part's numbers, names and fixed-size tables (spec/00_scope.md, Conventions). -/

namespace Sys2Proof

/-- One byte of a record. -/
abbrev Byte := BitVec 8
/-- A lane, 0 to 47. -/
abbrev LaneId := Fin 48
/-- A lane field of a record: 6 bits, so 48 to 63 name no lane (R94, R116, R123). -/
abbrev LaneField := Fin 64
/-- An isolation group, 0 to 127 (R35). -/
abbrev GroupId := Fin 128
/-- A stream id, 0 to 1023 (R1). -/
abbrev StreamId := Fin 1024
/-- A front tag, 0 to 4095 (R62). -/
abbrev FrontTag := Fin 4096
/-- A relocation tag, 0 to 511 (R62). -/
abbrev RelocTag := Fin 512
/-- A heat class, 0 (COLD) to 3 (HOT). -/
abbrev HeatClass := Fin 4
/-- The address of a flash block. -/
abbrev BlockAddr := BitVec 32
/-- A logical block address. -/
abbrev Lba := BitVec 48
/-- A DRAM buffer handle. -/
abbrev Handle := BitVec 32

/-- The lane field that names a lane. -/
def LaneId.field (l : LaneId) : LaneField := ⟨l.val, by omega⟩

/-- The lane that a lane field names, if it names one. -/
def LaneField.lane (f : LaneField) : Option LaneId :=
  if h : f.val < 48 then some ⟨f.val, h⟩ else none

/-- A table of exactly `n` records, as plain data. -/
structure Table (α : Type) (n : Nat) where
  /-- The records, number 0 first. -/
  items : List α
  /-- There are exactly `n`. -/
  size  : items.length = n
  deriving DecidableEq, Repr

namespace Table
variable {α : Type} {n : Nat}

/-- Every record the same. -/
def replicate (n : Nat) (a : α) : Table α n := ⟨List.replicate n a, List.length_replicate⟩

/-- Record number `i`. -/
def get (t : Table α n) (i : Fin n) : α := t.items[i.val]'(by rw [t.size]; exact i.isLt)

/-- The table with record `i` replaced. -/
def set (t : Table α n) (i : Fin n) (a : α) : Table α n :=
  ⟨t.items.set i.val a, by rw [List.length_set]; exact t.size⟩

/-- The table with every record changed the same way. -/
def map (t : Table α n) (f : α → α) : Table α n :=
  ⟨t.items.map f, by rw [List.length_map]; exact t.size⟩

end Table

/-- The states of a lane (R88). -/
inductive LaneState
  | closed | opening | opened | draining | fault
  deriving DecidableEq, Repr

/-- The fault residency timer (R88, R103). -/
inductive Residency
  | stopped | running (remaining : Nat) | elapsed
  deriving DecidableEq, Repr

/-- A group's fallback order (R37). -/
inductive Fallback
  | colderFirst | hotterFirst
  deriving DecidableEq, Repr

/-- The state of the heat sweep (R18). -/
inductive SweepState
  | idle | running
  deriving DecidableEq, Repr

/-- The intake mode (R142). -/
inductive IntakeMode
  | run | flushing | flushed
  deriving DecidableEq, Repr

/-- The B-link hold (R137). -/
inductive HoldState
  | free | stopping | held | releasing
  deriving DecidableEq, Repr

/-- The last reset taken (R150). -/
inductive ResetKind
  | powerOn | line | soft
  deriving DecidableEq, Repr

/-- The two record links. -/
inductive Link
  | front | back
  deriving DecidableEq, Repr

/-- The eleven condition sources, in the order of the table of R151. -/
inductive Source
  | programFail | resultTimeout | laneFault | unmatchedResult | reserveEmpty | grantRefused
  | backoff | tickLost | linkFormat | holdProtocol | powerFlush
  deriving DecidableEq, Repr

/-- The two kinds of capture (R159). -/
inductive CaptureKind
  | programFail | resultTimeout
  deriving DecidableEq, Repr

/-- Why a WRITE or RELOCATE is refused (R173). -/
inductive BackoffReason
  | power | tagInUse | closed | noLane | noRoom | queueFull
  deriving DecidableEq, Repr

/-- Why a block is handed back (R119). -/
inductive GivebackReason
  | unused | partlyUsed | bad | faulted | refused | duplicate | full | reset
  deriving DecidableEq, Repr

/-- The status of an ADMIN-REPLY (R167). -/
inductive Status
  | ok | badTable | badIndex | badValue | readOnly | conflict | state | tooSoon | full
  deriving DecidableEq, Repr

/-- The outcome of a RESULT (R122). -/
inductive ResultOutcome
  | ok | fail | aborted
  deriving DecidableEq, Repr

/-- The action of a LANE-REQUEST (R94). -/
inductive LaneAction
  | drain | stop | clear
  deriving DecidableEq, Repr

/-- The eight tables of table space (R167). -/
inductive TableName
  | stream | group | settings | lane | unit | frontTag | relocTag | resetCause
  deriving DecidableEq, Repr

end Sys2Proof
end

