-- ==== Sys2Proof/Config.lean ====
section
/-! DEFINITION. What the part fixes once and for all, and the codes the manual leaves open. -/

namespace Sys2Proof.Config

/-- Capacity of the front inbound queue (R163). -/
abbrev frontQueueCap : Nat := 256
/-- Capacity of the relocation queue (R165). -/
abbrev relocQueueCap : Nat := 64
/-- FHOLD rises at this many free slots or fewer (R164). -/
abbrev fholdRise : Nat := 16
/-- FHOLD falls at this many free slots or more (R164). -/
abbrev fholdFall : Nat := 32
/-- A fresh unit is sealed only while the ready queue holds fewer units than this (R73). -/
abbrev freshLimit : Nat := 4
/-- Capacity of a lane's outstanding list (R82). -/
abbrev outstandingCap : Nat := 4
/-- Capacity of a lane's reserve stack, and the count of a full WANT (R109, R115). -/
abbrev reserveCap : Nat := 8
/-- Capacity of the capture list (R158). -/
abbrev captureCap : Nat := 2
/-- Classifier accesses the port serves ahead of a waiting visit (R10). -/
abbrev classifierRunMax : Nat := 8
/-- Where the intake arbiter's share count saturates (R50). -/
abbrev shareCountMax : Nat := 15
/-- The attempt whose failure is the third failure (R129). -/
abbrev lastAttempt : Nat := 3
/-- Largest interval count C (R7). -/
abbrev countMax : Nat := 65535
/-- Largest rate R (R14, R27). -/
abbrev rateMax : Nat := 16776960
/-- Where lost ticks saturate (R20), and soft resets (R150). -/
abbrev lostTicksMax : Nat := 65535
/-- Where a lane's backoffs counter saturates (R88). -/
abbrev backoffsMax : Nat := 4294967295

/-! The 8-byte code of a reply item whose code the manual does not give (R173 gives the codes of
yes and no, absent, the fallback order and source sets only). Free values, log entry 15. -/

/-- The code of a lane state in the reply of a LANE TABLE-READ. Free, log entry 15. -/
opaque laneStateCode : LaneState → BitVec 64
/-- The item of a fault residency timer. Free, log entry 15. -/
opaque residencyItem : Residency → BitVec 64
/-- The item of a seal-age timer, stopped or running with its remaining time. Free, log entry 15. -/
opaque sealAgeItem : Option Nat → BitVec 64
/-- The code of a sweep state. Free, log entry 15. -/
opaque sweepStateCode : SweepState → BitVec 64
/-- The code of a flag that is set or clear, or of a level. Free, log entry 15. -/
opaque flagCode : Bool → BitVec 64
/-- The code of the warning summary or the error summary, true or false (R155). Free, log entry 15. -/
opaque summaryCode : Bool → BitVec 64
/-- The code of an intake mode. Free, log entry 15. -/
opaque modeCode : IntakeMode → BitVec 64
/-- The code of the last reset. Free, log entry 15. -/
opaque resetKindCode : ResetKind → BitVec 64
/-- The code of a capture's kind. Free, log entry 15. -/
opaque captureKindCode : CaptureKind → BitVec 64
/-- The code of an entry's source: true for front. Free, log entry 15. -/
opaque entrySourceCode : Bool → BitVec 64
/-- The item that shows a pad. Free, log entry 15. -/
opaque padItem : BitVec 64
/-- The code of a ready unit's run: true for re-queued. Free, log entry 15. -/
opaque requeuedCode : Bool → BitVec 64

/-- Whether the stream-table port, with an access or a visit waiting and nothing else due, ends it before the
next millisecond tick: a fresh value for each draw, since the manual gives an access no duration (R10, R20).
Free, log entry 25. -/
opaque accessEndsBeforeTick : Nat → Bool

end Sys2Proof.Config
end

