-- ==== Sys2Proof/Syntax.lean ====
section
/-! DEFINITION. The inbound records (spec/11, R161 to R173) and the commands: one constructor of
`Instr` for each row of spec/opcode_table.json. -/

namespace Sys2Proof

/-- A WRITE record (R52). The stream is tenant × 4 + hint (R1). -/
structure WriteRec where
  tenant : Fin 256
  hint   : Fin 4
  tag    : FrontTag
  /-- Sectors, 1 to 32 in a well-formed record. -/
  length : Nat
  lba    : Lba
  handle : Handle
  deriving DecidableEq, Repr

/-- The stream a WRITE names (R1). -/
def WriteRec.stream (w : WriteRec) : StreamId := ⟨w.tenant.val * 4 + w.hint.val, by omega⟩

/-- A RELOCATE record (R57): 1 to 8 sectors in a well-formed record, each with its LBA and handle. -/
structure RelocateRec where
  tag     : RelocTag
  stream  : StreamId
  sectors : List (Lba × Handle)
  deriving DecidableEq, Repr

/-- An ADMIN's request with its operands (spec/11, section 11.5). A table is named by its code,
a field by its number, a value by its 8 bytes (R173). -/
inductive AdminReq
  | tableRead (table : Byte) (index : BitVec 16)
  | tableWrite (table : Byte) (index : BitVec 16) (fields : List (Byte × BitVec 64))
  | laneRequest (lane : LaneField) (action : LaneAction)
  | conditionRead
  | conditionClear (sources : BitVec 16)
  | captureTake
  | softReset
  deriving DecidableEq, Repr

/-- An ADMIN record. -/
structure Admin where
  id  : BitVec 16
  req : AdminReq
  deriving DecidableEq, Repr

/-- A record of the front inbound queue (R163). -/
inductive FrontRec
  | write (w : WriteRec)
  | admin (a : Admin)
  deriving DecidableEq, Repr

/-- A well-formed inbound record of either link (spec/11, section 11.1). -/
inductive InRecord
  | write (w : WriteRec)
  | admin (a : Admin)
  | result (lane : LaneField) (outcome : ResultOutcome) (block : BlockAddr) (index : Fin 2048)
  | grant (lane : LaneField) (block : BlockAddr)
  | relocate (r : RelocateRec)
  | holdOn
  | holdOff
  deriving DecidableEq, Repr

/-- The commands: the rows of spec/opcode_table.json, in its order. -/
inductive Instr
  | powerOn
  | lineReset
  | resetEnd
  | holdupAsserted
  | holdupDeasserted
  | sampleTick
  | visit
  | sealAgeExpiry (lane : LaneId)
  /-- The unit is named by its place in the lane's outstanding list, oldest first. -/
  | resultTimeout (lane : LaneId) (place : Fin 4)
  | faultResidencyExpiry (lane : LaneId)
  /-- A record of kind WRITE arrives: the bytes behind its kind code. -/
  | writeArrival (body : List Byte)
  /-- A record of kind ADMIN arrives: the bytes behind its kind code. -/
  | adminArrival (body : List Byte)
  /-- A record of kind RELOCATE arrives: the bytes behind its kind code. -/
  | relocateArrival (body : List Byte)
  | write
  | writeClassification
  | relocate
  | relocateClassification
  | streamTableRead
  | streamTableWrite
  | groupTableRead
  | groupTableWrite
  | settingsTableRead
  | settingsTableWrite
  | laneTableRead
  | unitTableRead
  | frontTagTableRead
  | relocTagTableRead
  | resetCauseTableRead
  | tableWrite
  | drain
  | stop
  | clear
  | conditionRead
  | conditionClear
  | captureTake
  | softReset
  | resultOk (lane : LaneField) (block : BlockAddr) (index : Fin 2048)
  | resultFail (lane : LaneField) (block : BlockAddr) (index : Fin 2048)
  | resultAborted (lane : LaneField) (block : BlockAddr) (index : Fin 2048)
  | grant (lane : LaneField) (block : BlockAddr)
  | holdOn
  | holdOff
  | bLinkSendEnd
  | fLinkSendEnd
  | warningTakenAfterSoftReset
  /-- Bytes that are no well-formed record of the link, kind code included. -/
  | malformedRecord (link : Link) (bytes : List Byte)
  deriving DecidableEq, Repr

end Sys2Proof
end

