-- ==== Sys2Proof/Machine/State.lean ====
section
/-! DEFINITION. The state of the part as plain data, its outcomes, and the state right after reset. -/

namespace Sys2Proof.Machine

/-- A stream descriptor (R2). -/
structure Stream where
  admitted   : Bool
  group      : GroupId
  track      : Bool
  pinned     : Option HeatClass
  relocClass : Option HeatClass
  current    : HeatClass
  dwell      : Nat
  rate       : Nat
  count      : Nat
  written    : BitVec 40
  deriving DecidableEq, Repr

/-- A stream descriptor after power-on and line reset (R2). -/
def Stream.reset : Stream :=
  { admitted := false, group := 0, track := true, pinned := none, relocClass := none, current := 0,
    dwell := 0, rate := 0, count := 0, written := 0 }

/-- A group descriptor (R36): the lane map has one entry for each class. -/
structure Group where
  laneMap  : Table (Option LaneId) 4
  fallback : Fallback
  sealAge  : Nat
  deriving DecidableEq, Repr

/-- A lane map with no entry. -/
def Group.noLanes : Table (Option LaneId) 4 := .replicate 4 none

/-- A group descriptor after power-on and line reset (R36). -/
def Group.reset : Group := { laneMap := Group.noLanes, fallback := .colderFirst, sealAge := 20 }

/-- The tag of a sector entry, with its source: front or relocation (R69). -/
inductive TagRef
  | front (tag : FrontTag)
  | reloc (tag : RelocTag)
  deriving DecidableEq, Repr

/-- A sector entry (R69). -/
structure Sector where
  tag    : TagRef
  group  : GroupId
  stream : StreamId
  lba    : Lba
  handle : Handle
  deriving DecidableEq, Repr

/-- An entry of a sealed unit: a sector entry or a pad (R69). -/
inductive Entry
  | sector (x : Sector)
  | pad
  deriving DecidableEq, Repr

/-- A sealed unit that waits in the ready queue (R69). -/
structure SealedUnit where
  entries : List Entry
  attempt : Nat
  deriving DecidableEq, Repr

/-- An issued unit on the outstanding list (R121). `requeued` says that it stood in the re-queued run when
it was issued (R169; log entry 23). `timer` is the remaining time of its result timer; 0 while its
expiry is due (log entry 12). -/
structure Issued where
  entries  : List Entry
  block    : BlockAddr
  index    : Nat
  attempt  : Nat
  requeued : Bool
  timer    : Nat
  deriving DecidableEq, Repr

/-- A lane context (R70, R88, R108, R121). The ready queue is its two runs, re-queued units and then
fresh units (R72). `sealAge` is the seal-age timer: stopped, or running with its remaining time.
`nextIndex` is the next unit index, 0 while no block is current (log entry 20). The top of the reserve
stack stands first. -/
structure Lane where
  state           : LaneState
  owner           : Option GroupId
  residency       : Residency
  filling         : List Sector
  sealAge         : Option Nat
  sealPending     : Bool
  requeued        : List SealedUnit
  fresh           : List SealedUnit
  outstanding     : List Issued
  current         : Option BlockAddr
  nextIndex       : Nat
  reserve         : List BlockAddr
  want            : Bool
  unitsIssued     : BitVec 32
  sectorsPadded   : BitVec 32
  blocksCompleted : BitVec 32
  backoffs        : Nat
  deriving DecidableEq, Repr

/-- A lane context after every reset (R70, R88, R108, R121). -/
def Lane.reset : Lane :=
  { state := .closed, owner := none, residency := .stopped, filling := [], sealAge := none,
    sealPending := false, requeued := [], fresh := [], outstanding := [], current := none,
    nextIndex := 0, reserve := [], want := false, unitsIssued := 0, sectorsPadded := 0, blocksCompleted := 0,
    backoffs := 0 }

/-- A record of a tag table (R62). -/
structure TagRecord where
  inUse     : Bool
  remaining : Nat
  failed    : Bool
  length    : Nat
  stream    : StreamId
  deriving DecidableEq, Repr

/-- A tag record after every reset (R62). -/
def TagRecord.reset : TagRecord :=
  { inUse := false, remaining := 0, failed := false, length := 0, stream := 0 }

/-- The writable settings of the settings record (R170). An enable set has one bit for each source,
in the order of the sources. -/
structure Settings where
  unitSize       : Nat
  unitsPerBlock  : Nat
  laneLimit      : Nat
  period         : Nat
  shift          : Nat
  t1             : Nat
  t2             : Nat
  t3             : Nat
  hysteresis     : Nat
  dwell          : Nat
  resultTimeout  : Nat
  faultResidency : Nat
  refillMark     : Nat
  share          : Nat
  enables        : BitVec 11
  latchEnables   : BitVec 11
  deriving DecidableEq, Repr

/-- The settings after power-on and line reset (R170). -/
def Settings.reset : Settings :=
  { unitSize := 48, unitsPerBlock := 768, laneLimit := 48, period := 10, shift := 3, t1 := 2560,
    t2 := 12800, t3 := 64000, hysteresis := 512, dwell := 4, resultTimeout := 500,
    faultResidency := 10, refillMark := 2, share := 4, enables := BitVec.allOnes 11,
    latchEnables := BitVec.allOnes 11 }

/-- The five items of sweep state (R18). -/
structure Sweep where
  state     : SweepState
  position  : StreamId
  pending   : Bool
  lost      : Nat
  completed : BitVec 32
  deriving DecidableEq, Repr

/-- The sweep state after every reset (R18). -/
def Sweep.reset : Sweep := { state := .idle, position := 0, pending := false, lost := 0, completed := 0 }

/-- The sample timer (R17): milliseconds since the last sample tick, and the period length it took then. -/
structure SampleTimer where
  count  : Nat
  length : Nat
  deriving DecidableEq, Repr

/-- A fault capture (R159). `stream` is that of the unit's first sector entry; none only for a unit
without one, which R71 excludes (log entry 19). -/
structure Capture where
  kind    : CaptureKind
  lane    : LaneId
  block   : BlockAddr
  index   : Nat
  attempt : Nat
  stream  : Option StreamId
  stamp   : BitVec 32
  deriving DecidableEq, Repr

/-- What a CONDITION-READ reports (R156). The live states are those of LANE-FAULT, RESERVE-EMPTY and
POWER-FLUSH. -/
structure ConditionReport where
  enables        : BitVec 11
  latchEnables   : BitVec 11
  latches        : BitVec 11
  liveLaneFault  : Bool
  liveReserve    : Bool
  liveFlush      : Bool
  warningSummary : Bool
  errorSummary   : Bool
  /-- ATTN_N asserted. -/
  attn           : Bool
  held           : Nat
  oldest         : Option CaptureKind
  lost           : Bool
  time           : BitVec 32
  deriving DecidableEq, Repr

/-- What a LANE TABLE-READ reports (R168). -/
structure LaneSummary where
  state           : LaneState
  owner           : Option GroupId
  residency       : Residency
  fillCount       : Nat
  sealPending     : Bool
  sealAge         : Option Nat
  readyCount      : Nat
  requeuedCount   : Nat
  outstanding     : Nat
  current         : Option BlockAddr
  nextIndex       : Nat
  reserve         : List BlockAddr
  want            : Bool
  starved         : Bool
  unitsIssued     : BitVec 32
  sectorsPadded   : BitVec 32
  blocksCompleted : BitVec 32
  backoffs        : Nat
  deriving DecidableEq, Repr

/-- What a UNIT TABLE-READ reports of one slot (R169). -/
inductive UnitSlot
  | empty
  | filling (entries : List Sector)
  | ready (unit : SealedUnit) (requeued : Bool)
  | outstanding (unit : Issued)
  deriving DecidableEq, Repr

/-- The data of an ADMIN-REPLY (spec/11, section 11.5). -/
inductive ReplyData
  | none
  | stream (d : Stream)
  | group (d : Group)
  | settings (d : Settings) (w : Sweep)
  | lane (d : LaneSummary)
  | unit (d : UnitSlot)
  | tag (d : TagRecord)
  | resetCause (last : ResetKind) (softResets : Nat) (mode : IntakeMode) (warning : Bool)
  | conditions (d : ConditionReport)
  | latches (set : BitVec 11)
  | capture (oldest : Option Capture) (lost : Bool)
  deriving DecidableEq, Repr

/-- An outbound record of the F-link (spec/11, section 11.1). -/
inductive FRecord
  | done (tag : FrontTag) (failed : Bool)
  | backoff (tag : FrontTag) (reason : BackoffReason)
  | adminReply (id : BitVec 16) (status : Status) (data : ReplyData)
  | flushDone
  deriving DecidableEq, Repr

/-- An outbound record of the B-link (spec/11, section 11.1). A GIVEBACK has a unit index for the
reasons PARTIAL and BAD only (R119). -/
inductive BRecord
  | program (lane : LaneId) (block : BlockAddr) (index attempt size : Nat) (entries : List Entry)
  | want (lane : LaneId) (count : Nat)
  | giveback (lane : LaneField) (block : BlockAddr) (reason : GivebackReason) (index : Option Nat)
  | relocDone (tag : RelocTag) (failed : Bool)
  | relocBackoff (tag : RelocTag) (reason : BackoffReason)
  | holdAck
  | holdClear
  deriving DecidableEq, Repr

/-- The F-link transmitter (R166): the record being sent, and the records created and not yet sent. -/
structure FLink where
  sending : Option FRecord
  list    : List FRecord
  deriving DecidableEq, Repr

/-- The B-link transmitter (R85). -/
structure BLink where
  sending    : Option BRecord
  control    : List BRecord
  lastServed : LaneId
  deriving DecidableEq, Repr

/-- A record in the classifier's hand that waits for the stream-table port (R49). -/
inductive InHand
  | write (w : WriteRec)
  | relocate (r : RelocateRec)
  | streamAdmin (a : Admin)
  deriving DecidableEq, Repr

/-- The whole machine. `pending` is the model's own queue of commands, first in first out (log
entry 1), and `draws` its own counter (log entry 25); every other field is the part's (INVENTORY.md, State). -/
structure State where
  streams       : Table Stream 1024
  classifierRun : Nat
  sample        : SampleTimer
  sweep         : Sweep
  groups        : Table Group 128
  inHand        : Option InHand
  shareCount    : Nat
  frontTags     : Table TagRecord 4096
  relocTags     : Table TagRecord 512
  lanes         : Table Lane 48
  settings      : Settings
  frontQueue    : List FrontRec
  fhold         : Bool
  relocQueue    : List RelocateRec
  fLink         : FLink
  bLink         : BLink
  hold          : HoldState
  mode          : IntakeMode
  /-- The warning level: HOLDUP_N asserted as last taken (R142). -/
  warning       : Bool
  /-- HOLDUP_N asserted on the input itself (R147). -/
  holdupPin     : Bool
  /-- Held in reset (R147). -/
  inReset       : Bool
  lastReset     : ResetKind
  softResets    : Nat
  latches       : BitVec 11
  captures      : List Capture
  captureLost   : Bool
  time          : BitVec 32
  /-- How many free values of the port have been drawn: the model's own (log entry 25). -/
  draws         : Nat
  pending       : List Instr
  deriving DecidableEq, Repr

/-- Why the machine would stop with a fault: never. The manual describes no event that stops the
part; lane FAULT, program failures and timeouts are ordinary effects (INVENTORY.md, Faults). -/
inductive Fault : Type
  deriving DecidableEq, Repr

/-- Why a command has no meaning in the model. -/
inductive Refusal
  /-- Raised by `exec` for a command whose meaning is not written yet; none is left. Safe. -/
  | notModelled (mnemonic : String)
  deriving DecidableEq, Repr

/-- The part at work right after power-on, HOLDUP_N deasserted (log entry 10), with no command waiting. -/
def State.reset : State :=
  { streams := .replicate 1024 Stream.reset, classifierRun := 0,
    sample := { count := 0, length := 10 }, sweep := Sweep.reset,
    groups := .replicate 128 Group.reset, inHand := none, shareCount := 0,
    frontTags := .replicate 4096 TagRecord.reset, relocTags := .replicate 512 TagRecord.reset,
    lanes := .replicate 48 Lane.reset, settings := Settings.reset, frontQueue := [], fhold := false,
    relocQueue := [], fLink := { sending := none, list := [] },
    bLink := { sending := none, control := [], lastServed := 47 }, hold := .free, mode := .run,
    warning := false, holdupPin := false, inReset := false, lastReset := .powerOn, softResets := 0,
    latches := 0, captures := [], captureLost := false, time := 0, draws := 0, pending := [] }

end Sys2Proof.Machine
end

