-- ==== Sys2Proof/Machine/Flags.lean ====
section
/-! DEFINITION. The condition monitor: sources, live states, latches and ATTN_N (spec/10). -/

namespace Sys2Proof.Machine

/-- A source's number, in the order of the table of R151 (R173). -/
def sourceNum : Source → Nat
  | .programFail => 0 | .resultTimeout => 1 | .laneFault => 2 | .unmatchedResult => 3
  | .reserveEmpty => 4 | .grantRefused => 5 | .backoff => 6 | .tickLost => 7 | .linkFormat => 8
  | .holdProtocol => 9 | .powerFlush => 10

/-- The set of one source. -/
def sourceBit (x : Source) : BitVec 11 := 1#11 <<< sourceNum x

/-- A lane needs a block (R111). -/
def Lane.needsBlock (ln : Lane) : Bool :=
  (ln.state == .opening || ln.state == .opened || ln.state == .draining) && ln.current.isNone

/-- A lane is starved (R113). -/
def Lane.starved (ln : Lane) : Bool :=
  (ln.state == .opened || ln.state == .draining) && ln.current.isNone && ln.reserve.isEmpty

/-- LANE-FAULT is live (R151). -/
def State.liveLaneFault (s : State) : Bool := s.lanes.items.any fun ln => ln.state == .fault

/-- RESERVE-EMPTY is live (R151). -/
def State.liveReserveEmpty (s : State) : Bool :=
  s.lanes.items.any fun ln => ln.state == .opening || ln.starved

/-- POWER-FLUSH is live (R142). -/
def State.livePowerFlush (s : State) : Bool := s.mode == .flushing

/-- The level sources that are live. -/
def State.liveSet (s : State) : BitVec 11 :=
  (if s.liveLaneFault then sourceBit .laneFault else 0)
    ||| (if s.liveReserveEmpty then sourceBit .reserveEmpty else 0)
    ||| (if s.livePowerFlush then sourceBit .powerFlush else 0)

/-- The sources that may set their latch: both enables yes (R153, R154). -/
def State.latchable (s : State) : BitVec 11 := s.settings.enables &&& s.settings.latchEnables

/-- An event source is raised (R153). -/
def State.raise (s : State) (x : Source) : State :=
  { s with latches := s.latches ||| (sourceBit x &&& s.latchable) }

/-- Every level source that is live sets its latch while both its enables are yes (R154). -/
def State.latchLevels (s : State) : State :=
  { s with latches := s.latches ||| (s.liveSet &&& s.latchable) }

/-- The sources that assert ATTN_N: enabled, and latched or live (R155). -/
def State.attentionSet (s : State) : BitVec 11 := s.settings.enables &&& (s.latches ||| s.liveSet)

/-- The sources of class error (R151). -/
def errorSources : BitVec 11 :=
  sourceBit .resultTimeout ||| sourceBit .laneFault ||| sourceBit .linkFormat

/-- The error summary (R155). -/
def State.errorSummary (s : State) : Bool := s.attentionSet &&& errorSources != 0

/-- The warning summary (R155). -/
def State.warningSummary (s : State) : Bool := s.attentionSet &&& ~~~errorSources != 0

/-- The output ATTN_N is asserted, that is low (R155); deasserted while held in reset (R147). -/
def State.attn (s : State) : Bool := !s.inReset && (s.warningSummary || s.errorSummary)

/-- The output FLUSHED is high (R142, R147). -/
def State.flushedLine (s : State) : Bool := !s.inReset && s.mode == .flushed

/-- The items of a CONDITION-READ, all at one instant (R156). -/
def State.conditionReport (s : State) : ConditionReport :=
  { enables := s.settings.enables, latchEnables := s.settings.latchEnables, latches := s.latches,
    liveLaneFault := s.liveLaneFault, liveReserve := s.liveReserveEmpty,
    liveFlush := s.livePowerFlush, warningSummary := s.warningSummary,
    errorSummary := s.errorSummary, attn := s.attn, held := s.captures.length,
    oldest := s.captures.head?.map Capture.kind, lost := s.captureLost, time := s.time }

end Sys2Proof.Machine
end

