-- ==== Sys2Proof/Machine/Ops.lean ====
section
/-! DEFINITION. The named operations over the state that the meanings share: how a step is taken,
records created, entries settled, captures taken, records taken from the inbound queues. -/

namespace Sys2Proof.Machine
open Host (Outcome)

/-- One step of the working part. `none` says that the step is not due in this state, or that the
part is held in reset: the command is spent and nothing changes (log entries 3 and 18). Every step
taken ends by latching the live level sources (R154). -/
def commit (s : State) (r : Option State) : Outcome State Fault Refusal :=
  .next (if s.inReset then s else match r with
    | some t => t.latchLevels
    | none => s)

/-! ## Tables and lanes -/

/-- The state with one lane context replaced. -/
def State.setLane (s : State) (l : LaneId) (ln : Lane) : State := { s with lanes := s.lanes.set l ln }

/-- The state with one stream descriptor replaced. -/
def State.setStream (s : State) (i : StreamId) (d : Stream) : State :=
  { s with streams := s.streams.set i d }

/-- The state with one front tag record replaced. -/
def State.setFrontTag (s : State) (i : FrontTag) (r : TagRecord) : State :=
  { s with frontTags := s.frontTags.set i r }

/-- The state with one relocation tag record replaced. -/
def State.setRelocTag (s : State) (i : RelocTag) (r : TagRecord) : State :=
  { s with relocTags := s.relocTags.set i r }

/-- The lanes in ascending number. -/
def allLanes : List LaneId := List.finRange 48

/-- The classes in ascending number. -/
def allClasses : List HeatClass := List.finRange 4

/-! ## Outbound records -/

/-- The F-link transmitter sends the oldest record of its list whenever it is idle (R166). -/
def FLink.advance (t : FLink) : FLink :=
  match t.sending, t.list with
  | none, r :: rest => { sending := some r, list := rest }
  | _, _ => t

/-- A record is created for the F-link transmitter: it joins the end of the list (R166). -/
def State.createF (s : State) (r : FRecord) : State :=
  { s with fLink := FLink.advance { s.fLink with list := s.fLink.list ++ [r] } }

/-- The B-link transmitter sends the oldest control record whenever it is idle (R86, choice 1). -/
def BLink.advance (t : BLink) : BLink :=
  match t.sending, t.control with
  | none, r :: rest => { t with sending := some r, control := rest }
  | _, _ => t

/-- A record other than a PROGRAM is created for the B-link transmitter: it joins the end of the
control list (R85). -/
def State.createB (s : State) (r : BRecord) : State :=
  { s with bLink := BLink.advance { s.bLink with control := s.bLink.control ++ [r] } }

/-- An ADMIN-REPLY that echoes the request id (R65, R67). -/
def State.reply (s : State) (a : Admin) (status : Status) (data : ReplyData := .none) : State :=
  s.createF (.adminReply a.id status data)

/-! ## Settling (spec/08, section 8.5) -/

/-- A tag record after one of its entries is settled (R62, R135). -/
def TagRecord.settle (r : TagRecord) (programmed : Bool) : TagRecord :=
  { r with remaining := r.remaining - 1, failed := r.failed || !programmed,
           inUse := r.remaining - 1 != 0 }

/-- One entry is settled, and a tag whose last entry it was answers (R135, R136). A pad is dropped.
A free tag answers nothing (R136; log entry 19). -/
def settleEntry (programmed : Bool) (s : State) : Entry → State
  | .pad => s
  | .sector x =>
    match x.tag with
    | .front t =>
      let r := s.frontTags.get t
      if r.inUse then
        let r' := r.settle programmed
        let s' := s.setFrontTag t r'
        if r'.inUse then s' else s'.createF (.done t r'.failed)
      else s
    | .reloc t =>
      let r := s.relocTags.get t
      if r.inUse then
        let r' := r.settle programmed
        let s' := s.setRelocTag t r'
        if r'.inUse then s' else s'.createB (.relocDone t r'.failed)
      else s

/-- Entries are settled in order (R135). -/
def settleEntries (programmed : Bool) (es : List Entry) (s : State) : State :=
  es.foldl (settleEntry programmed) s

/-! ## Captures (spec/10, section 10.4) -/

/-- The stream of a unit's first sector entry (R131, R159). -/
def firstStream : List Entry → Option StreamId
  | [] => none
  | .sector x :: _ => some x.stream
  | .pad :: es => firstStream es

/-- A capture of an outstanding unit is taken, or lost when both slots are held (R159). -/
def takeCapture (kind : CaptureKind) (l : LaneId) (u : Issued) (s : State) : State :=
  if s.captures.length < Config.captureCap then
    let c : Capture :=
      { kind := kind, lane := l, block := u.block, index := u.index, attempt := u.attempt,
        stream := firstStream u.entries, stamp := s.time }
    { s with captures := s.captures ++ [c] }
  else { s with captureLost := true }

/-! ## The inbound queues (spec/11, sections 11.2 and 11.3; spec/04, section 4.1) -/

/-- FHOLD after the front inbound queue comes to hold `n` records (R164). -/
def fholdAfter (before : Bool) (n : Nat) : Bool :=
  if before then decide (Config.frontQueueCap - n < Config.fholdFall)
  else decide (Config.frontQueueCap - n ≤ Config.fholdRise)

/-- A HOLDUP_N level that flush control is about to take as an assertion in RUN: it stands only after
a SOFT-RESET (R149), and no record is taken before it (log entry 21). -/
def State.warningDue (s : State) : Bool := s.warning && s.mode == .run

/-- The queues an idle classifier may take from. -/
inductive Queue
  | front | reloc
  deriving DecidableEq, Repr

/-- The intake arbiter's choice (R50). -/
def State.choice (s : State) : Option Queue :=
  match s.frontQueue, s.relocQueue with
  | [], [] => none
  | _ :: _, [] => some .front
  | [], _ :: _ => some .reloc
  | _ :: _, _ :: _ => if s.shareCount < s.settings.share then some .front else some .reloc

/-- The classifier is idle and takes records (R49). -/
def State.classifierReady (s : State) : Bool := s.inHand.isNone && !s.warningDue

/-- The front record that the idle classifier takes next, if the arbiter's choice is the front queue. -/
def State.nextFront (s : State) : Option FrontRec :=
  if s.classifierReady && s.choice == some .front then s.frontQueue.head? else none

/-- The relocation record that the idle classifier takes next, if the choice is its queue. -/
def State.nextReloc (s : State) : Option RelocateRec :=
  if s.classifierReady && s.choice == some .reloc then s.relocQueue.head? else none

/-- The oldest front record is taken: the share count rises (R50), FHOLD follows (R164). -/
def State.takeFront (s : State) : State :=
  { s with frontQueue := s.frontQueue.tail, shareCount := min (s.shareCount + 1) Config.shareCountMax,
           fhold := fholdAfter s.fhold s.frontQueue.tail.length }

/-- The oldest relocation record is taken: the share count becomes 0 (R50). -/
def State.takeReloc (s : State) : State := { s with relocQueue := s.relocQueue.tail, shareCount := 0 }

/-- A step that takes an ADMIN from the head of the front inbound queue and executes it; not due
when the next record is none, or when the request is not this step's. -/
def onAdmin (s : State) (f : Admin → State → Option State) : Option State :=
  match s.nextFront with
  | some (.admin a) => f a s.takeFront
  | _ => none

/-! ## The stream-table port (spec/01, section 1.4) -/

/-- The sweep's visit waits at the port whenever a sweep runs (R23). -/
def State.visitWaits (s : State) : Bool := s.sweep.state == .running

/-- A classifier access waits at the port (R9). A WRITE or RELOCATE in hand asks for none once the
mode is not RUN, since it will be refused POWER (R54; log entry 7). -/
def State.accessWaits (s : State) : Bool :=
  match s.inHand with
  | none => false
  | some (.streamAdmin _) => true
  | some (.write _) | some (.relocate _) => s.mode == .run

/-- The port arbiter serves a classifier access now (R10). -/
def State.portServesClassifier (s : State) : Bool :=
  !s.visitWaits || s.classifierRun < Config.classifierRunMax

/-- The port arbiter serves the visit now (R10). -/
def State.portServesVisit (s : State) : Bool :=
  s.visitWaits && (!s.accessWaits || Config.classifierRunMax ≤ s.classifierRun)

/-- The port serves a classifier access (R10). -/
def State.countAccess (s : State) : State :=
  { s with classifierRun := if s.visitWaits then s.classifierRun + 1 else s.classifierRun }

/-! ## Table space (R167) -/

/-- The table a code names (R173). -/
def tableOfCode (c : Byte) : Option TableName :=
  match c.toNat with
  | 1 => some .stream | 2 => some .group | 3 => some .settings | 4 => some .lane | 5 => some .unit
  | 6 => some .frontTag | 7 => some .relocTag | 8 => some .resetCause | _ => none

/-- How many indexes a table has (spec/11, section 11.5). -/
def tableSize : TableName → Nat
  | .stream => 1024 | .group => 128 | .settings => 1 | .lane => 48 | .unit => 624
  | .frontTag => 4096 | .relocTag => 512 | .resetCause => 1

/-- A TABLE-READ of the given table, executed whole (R65, R167): BAD-INDEX, or OK with the record. -/
def readTable (s : State) (t : TableName) (look : State → Nat → ReplyData) : Option State :=
  onAdmin s fun a s' =>
    match a.req with
    | .tableRead code index =>
      if tableOfCode code = some t then
        some (if index.toNat < tableSize t then s'.reply a .ok (look s' index.toNat)
              else s'.reply a .badIndex)
      else none
    | _ => none

end Sys2Proof.Machine
end

