-- ==== Sys2Proof/Machine/Heat.lean ====
section
/-! DEFINITION. Heat estimation and class selection (spec/02): SAMPLE_TICK and VISIT. -/

namespace Sys2Proof.Machine
open Host (Outcome)

/-- The sample timer has reached its period length (R17). -/
def State.sampleDue (s : State) : Bool := s.sample.length ≤ s.sample.count

/-- The heat sweep takes a sample tick: it starts a sweep (R19), sets the pending tick, or is lost (R20). -/
def sweepTick (s : State) : State :=
  match s.sweep.state with
  | .idle => { s with sweep := { s.sweep with state := .running, position := 0 } }
  | .running =>
    if s.sweep.pending then
      let lost := min (s.sweep.lost + 1) Config.lostTicksMax
      State.raise { s with sweep := { s.sweep with lost := lost } } .tickLost
    else { s with sweep := { s.sweep with pending := true } }

/-- SAMPLE_TICK (R17): the timer restarts with the period now stored, and the sweep takes the tick. -/
def execSampleTick (s : State) : Outcome State Fault Refusal :=
  commit s (if s.sampleDue then
    some (sweepTick { s with sample := { count := 0, length := s.settings.period } })
  else none)

/-- A gap divided by 2 to the power k, rounded up (R27). -/
def gapStep (k gap : Nat) : Nat := (gap + 2 ^ k - 1) / 2 ^ k

/-- The rate moved toward its target (R27). -/
def moveRate (k r t : Nat) : Nat :=
  if r < t then r + gapStep k (t - r) else if t < r then r - gapStep k (r - t) else r

/-- Threshold Th[n], for n from 1 to 3 (R29). -/
def Settings.threshold (st : Settings) (n : Nat) : Nat :=
  if n = 1 then st.t1 else if n = 2 then st.t2 else st.t3

/-- The up-step is taken from class c at rate r (R29, 1). -/
def Settings.stepsUp (st : Settings) (c : HeatClass) (r : Nat) : Bool :=
  c.val < 3 && st.threshold (c.val + 1) + st.hysteresis ≤ r

/-- The down-step is taken from class c at rate r (R29, 2): r lies below Th[c] − H, as integers. -/
def Settings.stepsDown (st : Settings) (c : HeatClass) (r : Nat) : Bool :=
  0 < c.val && r + st.hysteresis < st.threshold c.val

/-- A class evaluation (R29). -/
def Stream.evaluate (st : Settings) (d : Stream) : Stream :=
  if st.stepsUp d.current d.rate then { d with current := d.current + 1, dwell := st.dwell }
  else if st.stepsDown d.current d.rate then { d with current := d.current - 1, dwell := st.dwell }
  else d

/-- A visit to one stream, under the settings in force (R25 to R29). -/
def Stream.visit (st : Settings) (d : Stream) : Stream :=
  if d.track then
    let moved := { d with rate := moveRate st.shift d.rate (d.count * 256), count := 0 }
    if 0 < d.dwell then { moved with dwell := d.dwell - 1 } else moved.evaluate st
  else { d with count := 0 }

/-- The sweep after the visit at its position has ended: the next position, or the end of the sweep
(R21, R23). -/
def Sweep.afterVisit (w : Sweep) : Sweep :=
  if w.position.val = 1023 then
    { w with
      completed := w.completed + 1
      position := 0
      pending := false
      state := if w.pending then .running else .idle }
  else { w with position := w.position + 1 }

/-- VISIT (R23, R27): the port serves the visit to the stream at the sweep's position, which sets the
classifier run to 0 (R10). Not due unless the port arbiter serves it. -/
def execVisit (s : State) : Outcome State Fault Refusal :=
  commit s (if s.portServesVisit then
    let i := s.sweep.position
    let s1 := s.setStream i ((s.streams.get i).visit s.settings)
    some { s1 with classifierRun := 0, sweep := s.sweep.afterVisit }
  else none)

end Sys2Proof.Machine
end

