-- ==== Sys2Proof/Machine/Units.lean ====
section
/-! DEFINITION. Unit assembly within one lane (spec/05): the filling unit, sealing, the ready queue. -/

namespace Sys2Proof.Machine

/-- Units in the ready queue, r: re-queued and fresh alike (R72). -/
def Lane.readyCount (ln : Lane) : Nat := ln.requeued.length + ln.fresh.length

/-- The units of the ready queue, head first (R72). -/
def Lane.ready (ln : Lane) : List SealedUnit := ln.requeued ++ ln.fresh

/-- The lane holds filling entries, ready units or outstanding units (R145). -/
def Lane.holdsWork (ln : Lane) : Bool :=
  !ln.filling.isEmpty || !ln.requeued.isEmpty || !ln.fresh.isEmpty || !ln.outstanding.isEmpty

/-- The room of a lane (R59). -/
def Lane.room (unitSize : Nat) (ln : Lane) : Nat :=
  if ln.readyCount < Config.freshLimit then
    (unitSize - ln.filling.length) + unitSize * (Config.freshLimit - ln.readyCount)
  else unitSize - ln.filling.length

/-- The filling unit is sealed as a fresh unit of attempt 1, made up with pads, which are counted; the
timer stops, the flag clears and a new filling unit starts (R69, R74, R79). -/
def Lane.sealFilling (unitSize : Nat) (ln : Lane) : Lane :=
  let pads := unitSize - ln.filling.length
  { ln with
    fresh := ln.fresh ++ [⟨ln.filling.map .sector ++ List.replicate pads .pad, 1⟩]
    sectorsPadded := ln.sectorsPadded + BitVec.ofNat 32 pads
    filling := []
    sealAge := none
    sealPending := false }

/-- What an expiry, a drain or a flush does to the filling unit (R76, R80, R81): nothing when it is
empty, sealed while r is below 4, otherwise flagged seal-pending unless it is full. -/
def Lane.sealOrFlag (unitSize : Nat) (ln : Lane) : Lane :=
  if ln.filling = [] then ln
  else if ln.readyCount < Config.freshLimit then ln.sealFilling unitSize
  else if ln.filling.length < unitSize then { ln with sealPending := true, sealAge := none }
  else ln

/-- What an issue does to the filling unit once r is below 4: a full unsealed or seal-pending unit is
sealed (R74, R77, R83 stage 7). -/
def Lane.sealWaiting (unitSize : Nat) (ln : Lane) : Lane :=
  if ln.filling ≠ [] ∧ ln.readyCount < Config.freshLimit
      ∧ (unitSize ≤ ln.filling.length ∨ ln.sealPending = true) then ln.sealFilling unitSize
  else ln

/-- One sector entry is appended to the filling unit. The first entry starts the seal-age timer from
the given seal age, 0 starting none (R75). A unit that fills is sealed while r is below 4; otherwise
it stays full with its timer stopped (R60, R74). -/
def Lane.append (unitSize age : Nat) (ln : Lane) (x : Sector) : Lane :=
  let timer := if ln.filling = [] then (if age = 0 then none else some age) else ln.sealAge
  let ln' := { ln with filling := ln.filling ++ [x], sealAge := timer }
  if unitSize ≤ ln'.filling.length then
    if ln.readyCount < Config.freshLimit then ln'.sealFilling unitSize
    else { ln' with sealAge := none }
  else ln'

/-- The sectors of a record are appended in order (R60). -/
def Lane.appendAll (unitSize age : Nat) (ln : Lane) (xs : List Sector) : Lane :=
  xs.foldl (Lane.append unitSize age) ln

/-- The head of the ready queue and the lane without it (R72). -/
def Lane.popReady (ln : Lane) : Option (SealedUnit × Lane) :=
  match ln.requeued with
  | u :: rest => some (u, { ln with requeued := rest })
  | [] =>
    match ln.fresh with
    | u :: rest => some (u, { ln with fresh := rest })
    | [] => none

/-- A unit is re-queued behind the re-queued units and ahead of every fresh unit (R128). -/
def Lane.requeue (ln : Lane) (u : Issued) (attempt : Nat) : Lane :=
  { ln with requeued := ln.requeued ++ [⟨u.entries, attempt⟩] }

/-- The first outstanding unit with this block and unit index, and the others in order (R122). -/
def takeMatch (b : BlockAddr) (i : Nat) : List Issued → Option (Issued × List Issued)
  | [] => none
  | u :: us =>
    if u.block = b ∧ u.index = i then some (u, us)
    else (takeMatch b i us).map fun p => (p.1, u :: p.2)

/-- The outstanding unit at a place whose result timer is due, and the others in order (R133). -/
def takeDue : Nat → List Issued → Option (Issued × List Issued)
  | _, [] => none
  | 0, u :: us => if u.timer = 0 then some (u, us) else none
  | n + 1, u :: us => (takeDue n us).map fun p => (p.1, u :: p.2)

/-- The entries FAULT entry discards, in order: the ready units head first, then the filling unit (R100). -/
def Lane.discards (ln : Lane) : List Entry :=
  ln.ready.flatMap SealedUnit.entries ++ ln.filling.map .sector

end Sys2Proof.Machine
end

