-- ==== Sys2Proof/Machine/Blocks.lean ====
section
/-! DEFINITION. Block supply and the ends of a lane (spec/06, spec/07): WANT, pop, GIVEBACK, claim,
FAULT entry, the FAULTED handback, drain completion. -/

namespace Sys2Proof.Machine

/-- A GIVEBACK is created (R119, R120). -/
def State.giveback (s : State) (l : LaneField) (b : BlockAddr) (r : GivebackReason)
    (index : Option Nat := none) : State :=
  s.createB (.giveback l b r index)

/-- Blocks are handed back in order, all for one reason (R120). -/
def givebackAll (l : LaneId) (r : GivebackReason) (bs : List BlockAddr) (s : State) : State :=
  bs.foldl (fun t b => t.giveback (LaneId.field l) b r) s

/-- The want check (R115): a lane whose want flag is clear creates a WANT and sets the flag. -/
def createWant (l : LaneId) (count : Nat) (s : State) : State :=
  let ln := s.lanes.get l
  if ln.want then s else (s.setLane l { ln with want := true }).createB (.want l count)

/-- The lane after its stack's top becomes its current block at index 0; an OPENING lane becomes OPEN
(R111, R92). -/
def Lane.pop (ln : Lane) (b : BlockAddr) (rest : List BlockAddr) : Lane :=
  { ln with
    reserve := rest
    current := some b
    nextIndex := 0
    state := if ln.state = .opening then .opened else ln.state }

/-- A lane that needs a block pops its stack and makes the want check against the refill mark, or with
an empty stack makes the want check for 8 (R111, R115). -/
def seekBlock (l : LaneId) (s : State) : State :=
  let ln := s.lanes.get l
  if ln.needsBlock then
    match ln.reserve with
    | [] => createWant l Config.reserveCap s
    | b :: rest =>
      let s' := s.setLane l (ln.pop b rest)
      if rest.length ≤ s.settings.refillMark then createWant l (Config.reserveCap - rest.length) s' else s'
  else s

/-- A CLOSED lane is claimed for a group and seeks a block (R41, R91). -/
def claimLane (g : GroupId) (s : State) (l : LaneId) : State :=
  seekBlock l (s.setLane l { s.lanes.get l with state := .opening, owner := some g })

/-- A group without the lane map entries that name a lane. -/
def Group.clearLane (l : LaneId) (g : Group) : Group :=
  { g with laneMap := g.laneMap.map fun e => if e = some l then none else e }

/-- Every lane map entry that names the lane is cleared (R45, R46). -/
def State.clearMaps (s : State) (l : LaneId) : State := { s with groups := s.groups.map (Group.clearLane l) }

/-- Some lane holds the block, as its current block or in reserve (R109, R116). -/
def State.holdsBlock (s : State) (b : BlockAddr) : Bool :=
  s.lanes.items.any fun ln => ln.current == some b || ln.reserve.contains b

/-- The current block becomes absent; no index stands then (R108; log entry 20). -/
def Lane.dropBlock (ln : Lane) : Lane := { ln with current := none, nextIndex := 0 }

/-- A lane in FAULT whose outstanding list is empty hands back its current block FAULTED (R102). -/
def faultedHandback (l : LaneId) (s : State) : State :=
  let ln := s.lanes.get l
  if ln.outstanding = [] then
    match ln.current with
    | some b => (s.setLane l ln.dropBlock).giveback (LaneId.field l) b .faulted
    | none => s
  else s

/-- FAULT entry (R100): state, maps, timer and flag; the ready and filling units discarded and settled
failed; the reserve stack handed back; the residency timer started; the current block handed back if
nothing is outstanding. -/
def faultEntry (l : LaneId) (s : State) : State :=
  let ln := s.lanes.get l
  let s1 := (s.clearMaps l).setLane l
    { ln with
      state := .fault
      sealAge := none
      sealPending := false
      requeued := []
      fresh := []
      filling := []
      reserve := []
      residency := .running s.settings.faultResidency }
  faultedHandback l (givebackAll l .unused ln.reserve (settleEntries false ln.discards s1))

/-- Drain completion (R97): the current block handed back PARTIAL or UNUSED, the reserve stack UNUSED,
owner and want flag cleared, CLOSED. -/
def completeDrain (l : LaneId) (s : State) : State :=
  let ln := s.lanes.get l
  let s1 := s.setLane l
    { ln.dropBlock with state := .closed, owner := none, want := false, reserve := [] }
  let s2 := match ln.current with
    | some b =>
      if ln.nextIndex = 0 then s1.giveback (LaneId.field l) b .unused
      else s1.giveback (LaneId.field l) b .partlyUsed (some ln.nextIndex)
    | none => s1
  givebackAll l .unused ln.reserve s2

/-- A DRAINING lane with nothing left completes its drain (R97). -/
def checkDrain (l : LaneId) (s : State) : State :=
  let ln := s.lanes.get l
  if ln.state = .draining ∧ ln.holdsWork = false then completeDrain l s else s

/-- What a lane does after a unit has left its outstanding list for good (R97, R102, R124): drain
completion, or the FAULTED handback. -/
def afterUnit (l : LaneId) (s : State) : State :=
  if (s.lanes.get l).state = .fault then faultedHandback l s else checkDrain l s

end Sys2Proof.Machine
end

