-- ==== Sys2Proof/Machine/Issue.lean ====
section
/-! DEFINITION. Issue and the B-link transmitter's choice (spec/05, sections 5.6 and 5.7). -/

namespace Sys2Proof.Machine

/-- A lane meets the conditions of issue but the hold (R82, 1 to 4). -/
def Lane.issuable (ln : Lane) : Bool :=
  ln.readyCount != 0 && (ln.state == .opened || ln.state == .draining) && ln.current.isSome
    && ln.outstanding.length < Config.outstandingCap

/-- The next unit index rises, or the block is complete and the lane seeks its next (R83 stage 6, R112). -/
def advanceBlock (l : LaneId) (s : State) : State :=
  let ln := s.lanes.get l
  if s.settings.unitsPerBlock ≤ ln.nextIndex + 1 then
    seekBlock l (s.setLane l { ln.dropBlock with blocksCompleted := ln.blocksCompleted + 1 })
  else s.setLane l { ln with nextIndex := ln.nextIndex + 1 }

/-- A lane issues the head of its ready queue into its current block (R83): the unit joins the
outstanding list with its timer started, the PROGRAM is being sent, the counter and the index rise, and
a waiting filling unit is sealed. -/
def issue (l : LaneId) (s : State) : State :=
  match (s.lanes.get l).popReady, (s.lanes.get l).current with
  | some (u, ln), some b =>
    let out : Issued :=
      { entries := u.entries, block := b, index := ln.nextIndex, attempt := u.attempt,
        requeued := !(s.lanes.get l).requeued.isEmpty, timer := s.settings.resultTimeout }
    let s1 := s.setLane l
      { ln with outstanding := ln.outstanding ++ [out], unitsIssued := ln.unitsIssued + 1 }
    let s2 := { s1 with
      bLink := { s1.bLink with
        sending := some (.program l b ln.nextIndex u.attempt s.settings.unitSize u.entries)
        lastServed := l } }
    let s3 := advanceBlock l s2
    s3.setLane l ((s3.lanes.get l).sealWaiting s.settings.unitSize)
  | _, _ => s

/-- The order in which the round-robin looks at the lanes: from the one after the last lane served,
ascending and wrapping (R86). -/
def roundRobin (last : LaneId) : List LaneId := allLanes.map fun i => last + 1 + i

/-- The lane the transmitter's next PROGRAM choice takes (R86, choice 2). -/
def State.nextLane (s : State) : Option LaneId :=
  (roundRobin s.bLink.lastServed).find? fun l => (s.lanes.get l).issuable

/-- The B-link transmitter's choice whenever it is idle (R86): the oldest control record; otherwise,
unless the port is held (R87), the next PROGRAM by round-robin. A control record created while the
transmitter is idle starts as it is created (`State.createB`); the choice is made at the end of a step,
with everything the step did present (log entry 8). -/
def transmitterChoice (s : State) : State :=
  match s.bLink.sending, s.bLink.control with
  | some _, _ => s
  | none, _ :: _ => { s with bLink := s.bLink.advance }
  | none, [] =>
    if s.hold = .free then
      match s.nextLane with
      | some l => issue l s
      | none => s
    else s

end Sys2Proof.Machine
end

