-- ==== Sys2Proof/Machine/Flush.lean ====
section
/-! DEFINITION. The power-loss flush (spec/09, section 9.2). -/

namespace Sys2Proof.Machine

/-- Some lane holds filling entries, ready units or outstanding units (R145). -/
def State.workHeld (s : State) : Bool := s.lanes.items.any Lane.holdsWork

/-- The completion check (R145): FLUSH-DONE is created, and the mode becomes FLUSHED, or RUN when the
warning level is deasserted (R146). -/
def flushCheck (s : State) : State :=
  if s.mode = .flushing ∧ s.workHeld = false then
    { s.createF .flushDone with mode := if s.warning then .flushed else .run }
  else s

/-- What a lane does when a flush begins (R81, R143): its filling unit is sealed, flagged or left, and
its seal-age timer is stopped. -/
def Lane.flush (unitSize : Nat) (ln : Lane) : Lane := { ln.sealOrFlag unitSize with sealAge := none }

/-- An assertion of HOLDUP_N taken in RUN (R143). POWER-FLUSH is live in the step even when the flush
completes in it (R151, R154). -/
def beginFlush (s : State) : State :=
  let s1 := { s with warning := true, mode := .flushing,
                     lanes := s.lanes.map (Lane.flush s.settings.unitSize) }
  transmitterChoice (flushCheck s1.latchLevels)

end Sys2Proof.Machine
end

