-- ==== Sys2Proof/Machine/Requests.lean ====
section
/-! DEFINITION. Lane requests and the lane timers' own steps (spec/05 section 5.4, spec/06): DRAIN, STOP,
CLEAR, SEAL_AGE_EXPIRY, FAULT_RESIDENCY_EXPIRY. -/

namespace Sys2Proof.Machine
open Host (Outcome)

/-- A LANE-REQUEST of the given action, executed whole (R94): BAD-INDEX for lanes 48 to 63. -/
def onLaneRequest (s : State) (act : LaneAction) (f : Admin → LaneId → State → State) : Option State :=
  onAdmin s fun a s' =>
    match a.req with
    | .laneRequest lane act' =>
      if act' = act then
        some (match LaneField.lane lane with
          | none => s'.reply a .badIndex
          | some l => f a l s')
      else none
    | _ => none

/-- A lane enters DRAINING (R95): maps cleared, filling unit sealed, flagged or left, timer stopped;
the drain completes at once when nothing is left. -/
def drainLane (l : LaneId) (s : State) : State :=
  let ln := { s.lanes.get l with state := .draining }
  checkDrain l ((s.clearMaps l).setLane l { ln.sealOrFlag s.settings.unitSize with sealAge := none })

/-- A DRAIN request on one lane (R94, R95). -/
def requestDrain (a : Admin) (l : LaneId) (s : State) : State :=
  match (s.lanes.get l).state with
  | .opening | .opened => transmitterChoice ((flushCheck (drainLane l s)).reply a .ok)
  | .draining => s.reply a .ok
  | .closed | .fault => s.reply a .state

/-- DRAIN (R95). -/
def execDrain (s : State) : Outcome State Fault Refusal := commit s (onLaneRequest s .drain requestDrain)

/-- A STOP request on one lane (R94, R99). -/
def requestStop (a : Admin) (l : LaneId) (s : State) : State :=
  match (s.lanes.get l).state with
  | .opening | .opened | .draining => (flushCheck (faultEntry l s)).reply a .ok
  | .closed | .fault => s.reply a .state

/-- STOP (R99). -/
def execStop (s : State) : Outcome State Fault Refusal := commit s (onLaneRequest s .stop requestStop)

/-- A FAULT lane becomes CLOSED (R104 step 3). -/
def Lane.cleared (ln : Lane) : Lane :=
  { ln with state := .closed, owner := none, want := false, residency := .stopped }

/-- A CLEAR request on one lane (R94, R104). -/
def requestClear (a : Admin) (l : LaneId) (s : State) : State :=
  let ln := s.lanes.get l
  if ln.state = .fault then
    if ln.outstanding ≠ [] then s.reply a .state
    else if ln.residency ≠ .elapsed then s.reply a .tooSoon
    else (s.setLane l ln.cleared).reply a .ok
  else s.reply a .state

/-- CLEAR (R104). -/
def execClear (s : State) : Outcome State Fault Refusal := commit s (onLaneRequest s .clear requestClear)

/-- The seal-age timer has run out and its expiry is due (R75; log entry 12). -/
def Lane.sealAgeDue (ln : Lane) : Bool := ln.sealAge == some 0

/-- SEAL_AGE_EXPIRY (R76): the timer has stopped; the filling unit is sealed, or flagged. -/
def execSealAgeExpiry (l : LaneId) (s : State) : Outcome State Fault Refusal :=
  commit s (if (s.lanes.get l).sealAgeDue then
    let ln := { s.lanes.get l with sealAge := none }
    some (transmitterChoice (s.setLane l (ln.sealOrFlag s.settings.unitSize)))
  else none)

/-- The fault residency timer has run out and its expiry is due (R103; log entry 12). -/
def Lane.residencyDue (ln : Lane) : Bool := ln.residency == .running 0

/-- FAULT_RESIDENCY_EXPIRY (R103): the timer becomes elapsed. -/
def execFaultResidencyExpiry (l : LaneId) (s : State) : Outcome State Fault Refusal :=
  commit s (if (s.lanes.get l).residencyDue then
    some (s.setLane l { s.lanes.get l with residency := .elapsed })
  else none)

end Sys2Proof.Machine
end

