-- ==== Sys2Proof/Machine/Clock.lean ====
section
/-! DEFINITION. The millisecond tick (spec/00, Time) and the steps that are due when no command waits:
what the machine does on an empty queue (log entries 2, 13 and 25). -/

namespace Sys2Proof.Machine

/-- A running residency timer counts a tick (R103). -/
def Residency.tick : Residency → Residency
  | .running n => .running (n - 1)
  | .stopped => .stopped
  | .elapsed => .elapsed

/-- A lane's timers count a tick (R75, R103, R132). -/
def Lane.tick (ln : Lane) : Lane :=
  { ln with
    sealAge := ln.sealAge.map fun n => n - 1
    residency := Residency.tick ln.residency
    outstanding := ln.outstanding.map fun u => { u with timer := u.timer - 1 } }

/-- One millisecond tick: the sample timer (R17), the lanes' timers and the time counter (R158). -/
def msTick (s : State) : State :=
  { s with
    sample := { s.sample with count := s.sample.count + 1 }
    lanes := s.lanes.map Lane.tick
    time := s.time + 1 }

/-- The first place of a due result timer. -/
def duePlace (us : List Issued) : Option (Fin 4) :=
  (List.finRange 4).find? fun p => (us[p.val]?).any fun u => u.timer == 0

/-- The first due expiry of one lane: seal age, then result timers oldest first, then residency. -/
def Lane.dueCommand (l : LaneId) (ln : Lane) : Option Instr :=
  if ln.sealAgeDue then some (.sealAgeExpiry l)
  else match duePlace ln.outstanding with
    | some p => some (.resultTimeout l p)
    | none => if ln.residencyDue then some (.faultResidencyExpiry l) else none

/-- The row of the table that executes an ADMIN's request (spec/11, section 11.5; log entry 6). -/
def requestCommand : AdminReq → Instr
  | .tableRead code _ =>
    match tableOfCode code with
    | some .stream => .streamTableRead | some .group => .groupTableRead
    | some .settings => .settingsTableRead | some .lane => .laneTableRead
    | some .unit => .unitTableRead | some .frontTag => .frontTagTableRead
    | some .relocTag => .relocTagTableRead | some .resetCause => .resetCauseTableRead
    | none => .tableWrite
  | .tableWrite code _ _ =>
    match tableOfCode code with
    | some .stream => .streamTableWrite | some .group => .groupTableWrite
    | some .settings => .settingsTableWrite
    | some .lane | some .unit | some .frontTag | some .relocTag | some .resetCause | none => .tableWrite
  | .laneRequest _ .drain => .drain
  | .laneRequest _ .stop => .stop
  | .laneRequest _ .clear => .clear
  | .conditionRead => .conditionRead
  | .conditionClear _ => .conditionClear
  | .captureTake => .captureTake
  | .softReset => .softReset

/-- The command that takes the record which the idle classifier takes next (R49, R50). -/
def State.takeCommand (s : State) : Option Instr :=
  match s.nextFront, s.nextReloc with
  | some (.write _), _ => some .write
  | some (.admin a), _ => some (requestCommand a.req)
  | none, some _ => some .relocate
  | none, none => none

/-- The command that goes on with the record in hand (R9, R49). -/
def InHand.command : InHand → Instr
  | .write _ => .writeClassification
  | .relocate _ => .relocateClassification
  | .streamAdmin a => requestCommand a.req

/-- The step that the classifier makes at once: idle, it takes a record (R49); a record in hand that asks for
no access, since its mode has left RUN, it goes on with. -/
def State.classifierCommand (s : State) : Option Instr :=
  match s.inHand with
  | none => s.takeCommand
  | some h => if s.accessWaits then none else some h.command

/-- What the port arbiter serves of the accesses that wait: the visit, the access of the record in hand, or
nothing (R10). -/
def State.portCommand (s : State) : Option Instr :=
  if s.portServesVisit then some .visit
  else if s.accessWaits then s.inHand.map InHand.command else none

/-- The step that is due at once although no command asks for it: a warning level standing after a
SOFT-RESET (R149); the sample tick (R17); a lane's expiry, in ascending lane order; the classifier's step
(R49). -/
def dueCommand (s : State) : Option Instr :=
  if s.warningDue then some .warningTakenAfterSoftReset
  else if s.sampleDue then some .sampleTick
  else match allLanes.findSome? fun l => (s.lanes.get l).dueCommand l with
    | some c => some c
    | none => s.classifierCommand

end Sys2Proof.Machine
end

