-- ==== Sys2Proof/Machine/Conditions.lean ====
section
/-! DEFINITION. Condition and capture requests (spec/10): CONDITION_READ, CONDITION_CLEAR, CAPTURE_TAKE. -/

namespace Sys2Proof.Machine
open Host (Outcome)

/-- CONDITION_READ (R156). -/
def execConditionRead (s : State) : Outcome State Fault Refusal :=
  commit s (onAdmin s fun a s' =>
    match a.req with
    | .conditionRead => some (s'.reply a .ok (.conditions s'.conditionReport))
    | _ => none)

/-- The named latches are cleared, and live level sources latch again in the same step (R157). -/
def clearLatches (x : BitVec 11) (s : State) : State :=
  State.latchLevels { s with latches := s.latches &&& ~~~x }

/-- CONDITION_CLEAR (R157): BAD-VALUE for a set with any of the upper five bits. -/
def execConditionClear (s : State) : Outcome State Fault Refusal :=
  commit s (onAdmin s fun a s' =>
    match a.req with
    | .conditionClear x =>
      if x.toNat < 2048 then
        let t := clearLatches (BitVec.ofNat 11 x.toNat) s'
        some (t.reply a .ok (.latches t.latches))
      else some (s'.reply a .badValue)
    | _ => none)

/-- CAPTURE_TAKE (R160): the oldest capture, or none, with the capture-lost flag, which is then cleared. -/
def execCaptureTake (s : State) : Outcome State Fault Refusal :=
  commit s (onAdmin s fun a s' =>
    match a.req with
    | .captureTake =>
      let t := s'.reply a .ok (.capture s'.captures.head? s'.captureLost)
      some { t with captures := s'.captures.tail, captureLost := false }
    | _ => none)

end Sys2Proof.Machine
end

