-- ==== Sys2Proof/Decode.lean ====
section
/-! DEFINITION. The inbound record layouts of R173, read and written, with the rules of form of
R162; and the command a word of the opcode table spells (none: the table gives no row bits). -/

namespace Sys2Proof

/-- The number that bytes spell, least significant byte first (R173). -/
def leNat : List Byte → Nat
  | [] => 0
  | b :: bs => b.toNat + 256 * leNat bs

/-- A number as `n` bytes, least significant byte first (R173). -/
def leBytes : Nat → Nat → List Byte
  | 0, _ => []
  | n + 1, v => BitVec.ofNat 8 v :: leBytes n (v / 256)

/-- A field that must lie below `n`: a bit above the field's width makes the record malformed. -/
def fieldBelow (n v : Nat) : Option (Fin n) := if h : v < n then some ⟨v, h⟩ else none

/-- The first `n` bytes and the rest, if there are that many. -/
def splitBytes : Nat → List Byte → Option (List Byte × List Byte)
  | 0, bs => some ([], bs)
  | _ + 1, [] => none
  | n + 1, b :: bs => (splitBytes n bs).map fun p => (b :: p.1, p.2)

/-- Request codes of R173 are 1 to 7, actions 1 to 3. -/
def LaneAction.ofCode (v : Nat) : Option LaneAction :=
  if v = 1 then some .drain else if v = 2 then some .stop else if v = 3 then some .clear else none

/-- The code of an action (R173). -/
def LaneAction.code : LaneAction → Nat
  | .drain => 1 | .stop => 2 | .clear => 3

/-- The outcome codes of a RESULT (R173). -/
def ResultOutcome.ofCode (v : Nat) : Option ResultOutcome :=
  if v = 0 then some .ok else if v = 1 then some .fail else if v = 2 then some .aborted else none

/-- The code of an outcome (R173). -/
def ResultOutcome.code : ResultOutcome → Nat
  | .ok => 0 | .fail => 1 | .aborted => 2

/-- The body of a WRITE: tenant; hint; length; tag (2); first LBA (6); first handle (4). Malformed
when the length is 0 or above 32, or a bit above a field's width is 1 (R162). -/
def parseWrite (bs : List Byte) : Option WriteRec :=
  match bs with
  | b0 :: b1 :: b2 :: rest =>
    if rest.length = 12 then
      match fieldBelow 4 b1.toNat, fieldBelow 4096 (leNat (rest.take 2)) with
      | some hint, some tag =>
        if 1 ≤ b2.toNat ∧ b2.toNat ≤ 32 then
          some { tenant := ⟨b0.toNat, b0.isLt⟩, hint := hint, tag := tag, length := b2.toNat,
                 lba := BitVec.ofNat 48 (leNat ((rest.drop 2).take 6)),
                 handle := BitVec.ofNat 32 (leNat (rest.drop 8)) }
        else none
      | _, _ => none
    else none
  | _ => none

/-- The body of a WRITE record, as bytes. -/
def layoutWrite (w : WriteRec) : List Byte :=
  leBytes 1 w.tenant.val ++ leBytes 1 w.hint.val ++ leBytes 1 w.length ++ leBytes 2 w.tag.val
    ++ leBytes 6 w.lba.toNat ++ leBytes 4 w.handle.toNat

/-- `m` pairs of a field number and a value of 8 bytes, with nothing behind them. -/
def parseFields : Nat → List Byte → Option (List (Byte × BitVec 64))
  | 0, bs => if bs = [] then some [] else none
  | m + 1, bs =>
    match splitBytes 9 bs with
    | some (f :: v, rest) => (parseFields m rest).map fun l => (f, BitVec.ofNat 64 (leNat v)) :: l
    | _ => none

/-- The pairs of a field-select list, as bytes. -/
def layoutFields : List (Byte × BitVec 64) → List Byte
  | [] => []
  | (f, v) :: l => f :: leBytes 8 v.toNat ++ layoutFields l

/-- An ADMIN's request from its code and its operand bytes; none where R162 calls it malformed: a
code that names no request, operands of the wrong length, an action that is none of the three. -/
def parseRequest (code : Nat) (ops : List Byte) : Option AdminReq :=
  if code = 1 then
    match ops with
    | [t, i0, i1] => some (.tableRead t (BitVec.ofNat 16 (leNat [i0, i1])))
    | _ => none
  else if code = 2 then
    match ops with
    | t :: i0 :: i1 :: m :: rest =>
      if m.toNat ≤ 27 then
        (parseFields m.toNat rest).map fun l => .tableWrite t (BitVec.ofNat 16 (leNat [i0, i1])) l
      else none
    | _ => none
  else if code = 3 then
    match ops with
    | [l, a] =>
      match fieldBelow 64 l.toNat, LaneAction.ofCode a.toNat with
      | some lane, some act => some (.laneRequest lane act)
      | _, _ => none
    | _ => none
  else if code = 4 then (if ops = [] then some .conditionRead else none)
  else if code = 5 then
    match ops with
    | [s0, s1] => some (.conditionClear (BitVec.ofNat 16 (leNat [s0, s1])))
    | _ => none
  else if code = 6 then (if ops = [] then some .captureTake else none)
  else if code = 7 then (if ops = [] then some .softReset else none)
  else none

/-- A request's code (R173). -/
def AdminReq.code : AdminReq → Nat
  | .tableRead .. => 1 | .tableWrite .. => 2 | .laneRequest .. => 3 | .conditionRead => 4
  | .conditionClear .. => 5 | .captureTake => 6 | .softReset => 7

/-- A request's operands, as bytes. -/
def AdminReq.operands : AdminReq → List Byte
  | .tableRead t i => t :: leBytes 2 i.toNat
  | .tableWrite t i l => t :: leBytes 2 i.toNat ++ BitVec.ofNat 8 l.length :: layoutFields l
  | .laneRequest l a => [BitVec.ofNat 8 l.val, BitVec.ofNat 8 a.code]
  | .conditionClear s => leBytes 2 s.toNat
  | _ => []

/-- The body of an ADMIN: request code; request id (2); operand length n; n operand bytes. -/
def parseAdmin (bs : List Byte) : Option Admin :=
  match bs with
  | c :: i0 :: i1 :: n :: ops =>
    if ops.length = n.toNat then
      (parseRequest c.toNat ops).map fun r => { id := BitVec.ofNat 16 (leNat [i0, i1]), req := r }
    else none
  | _ => none

/-- The body of an ADMIN record, as bytes. -/
def layoutAdmin (a : Admin) : List Byte :=
  BitVec.ofNat 8 a.req.code :: leBytes 2 a.id.toNat
    ++ BitVec.ofNat 8 a.req.operands.length :: a.req.operands

/-- `c` sectors of an LBA (6) and a handle (4) each, with nothing behind them. -/
def parseSectors : Nat → List Byte → Option (List (Lba × Handle))
  | 0, bs => if bs = [] then some [] else none
  | c + 1, bs =>
    match splitBytes 10 bs with
    | some (s, rest) =>
      (parseSectors c rest).map fun l =>
        (BitVec.ofNat 48 (leNat (s.take 6)), BitVec.ofNat 32 (leNat (s.drop 6))) :: l
    | none => none

/-- The sectors of a RELOCATE, as bytes. -/
def layoutSectors : List (Lba × Handle) → List Byte
  | [] => []
  | (a, h) :: l => leBytes 6 a.toNat ++ leBytes 4 h.toNat ++ layoutSectors l

/-- The body of a RELOCATE: relocation tag (2); stream (2); count c; c sectors. Malformed when the
count is 0 or above 8 (R57, R162). -/
def parseRelocate (bs : List Byte) : Option RelocateRec :=
  match bs with
  | t0 :: t1 :: s0 :: s1 :: c :: rest =>
    match fieldBelow 512 (leNat [t0, t1]), fieldBelow 1024 (leNat [s0, s1]) with
    | some tag, some stream =>
      if 1 ≤ c.toNat ∧ c.toNat ≤ 8 then
        (parseSectors c.toNat rest).map fun l => { tag := tag, stream := stream, sectors := l }
      else none
    | _, _ => none
  | _ => none

/-- The body of a RELOCATE record, as bytes. -/
def layoutRelocate (r : RelocateRec) : List Byte :=
  leBytes 2 r.tag.val ++ leBytes 2 r.stream.val ++ BitVec.ofNat 8 r.sectors.length
    :: layoutSectors r.sectors

/-- The body of a RESULT: lane; outcome; block (4); unit index (2). -/
def parseResult (bs : List Byte) : Option InRecord :=
  match bs with
  | [l, o, b0, b1, b2, b3, i0, i1] =>
    match fieldBelow 64 l.toNat, ResultOutcome.ofCode o.toNat, fieldBelow 2048 (leNat [i0, i1]) with
    | some lane, some out, some idx =>
      some (.result lane out (BitVec.ofNat 32 (leNat [b0, b1, b2, b3])) idx)
    | _, _, _ => none
  | _ => none

/-- The body of a GRANT: lane; block (4). -/
def parseGrant (bs : List Byte) : Option InRecord :=
  match bs with
  | [l, b0, b1, b2, b3] =>
    (fieldBelow 64 l.toNat).map fun lane => .grant lane (BitVec.ofNat 32 (leNat [b0, b1, b2, b3]))
  | _ => none

/-- The record that bytes received on a link are, kind code first; none where R162 calls them
malformed: a kind code that is none of the link's inbound kinds, a length that differs from the
layout's, a bit above a field's width, or a value the rules of form exclude. -/
def parseRecord (link : Link) (bs : List Byte) : Option InRecord :=
  match link, bs with
  | .front, k :: body =>
    if k.toNat = 0x01 then (parseWrite body).map .write
    else if k.toNat = 0x02 then (parseAdmin body).map .admin
    else none
  | .back, k :: body =>
    if k.toNat = 0x41 then parseResult body
    else if k.toNat = 0x42 then parseGrant body
    else if k.toNat = 0x43 then (parseRelocate body).map .relocate
    else if k.toNat = 0x44 then (if body = [] then some .holdOn else none)
    else if k.toNat = 0x45 then (if body = [] then some .holdOff else none)
    else none
  | _, [] => none

/-- The link an inbound record comes on. -/
def InRecord.link : InRecord → Link
  | .write _ | .admin _ => .front
  | _ => .back

/-- An inbound record, as the bytes of its layout (R173). -/
def layoutRecord : InRecord → List Byte
  | .write w => 0x01#8 :: layoutWrite w
  | .admin a => 0x02#8 :: layoutAdmin a
  | .result l o b i => 0x41#8 :: BitVec.ofNat 8 l.val :: BitVec.ofNat 8 o.code
      :: (leBytes 4 b.toNat ++ leBytes 2 i.val)
  | .grant l b => 0x42#8 :: BitVec.ofNat 8 l.val :: leBytes 4 b.toNat
  | .relocate r => 0x43#8 :: layoutRelocate r
  | .holdOn => [0x44#8]
  | .holdOff => [0x45#8]

/-- The command that a word of the opcode table spells. spec/opcode_table.json gives no row any
bits, so no word spells a command (log entry 1). -/
def decodeTableWord (_nbits _w : Nat) : Option Instr := none

end Sys2Proof
end

