-- ==== Sys2Proof/Machine/Operands.lean ====
section
/-! DEFINITION. The operands of a TABLE-WRITE: field numbers and values of the three writable tables,
their ranges, and what storing each does within its record (R13, R14, R39, R171, R173). -/

namespace Sys2Proof.Machine

/-- Absent, as a value: all ones (R173). -/
def absentValue : BitVec 64 := BitVec.allOnes 64

/-- A field is named more than once (R13, R39, R171). -/
def repeats : List (Byte × BitVec 64) → Bool
  | [] => false
  | (f, _) :: l => l.any (fun p => p.1 == f) || repeats l

/-- A field is selected. -/
def selects (l : List (Byte × BitVec 64)) (n : Nat) : Bool := l.any fun p => p.1.toNat == n

/-- Every pair is stored in turn; none when one names no field or lies outside its range. -/
def storeAll {σ : Type} (store : σ → Nat → BitVec 64 → Option σ) : σ → List (Byte × BitVec 64) → Option σ
  | x, [] => some x
  | x, (f, v) :: l =>
    match store x f.toNat v with
    | some y => storeAll store y l
    | none => none

/-- Yes or no. -/
def boolValue (v : BitVec 64) : Option Bool :=
  if v.toNat = 0 then some false else if v.toNat = 1 then some true else none

/-- A number in a range. -/
def rangeValue (lo hi : Nat) (v : BitVec 64) : Option Nat :=
  if lo ≤ v.toNat ∧ v.toNat ≤ hi then some v.toNat else none

/-- Absent, or a number below `n`. -/
def optValue (n : Nat) (v : BitVec 64) : Option (Option (Fin n)) :=
  if v = absentValue then some none else (fieldBelow n v.toNat).map some

/-- A set of the eleven sources (R152, R171). -/
def setValue (v : BitVec 64) : Option (BitVec 11) :=
  if v.toNat < 2048 then some (BitVec.ofNat 11 v.toNat) else none

/-- The number of the read-only field sectors written in a STREAM write. -/
def writtenField : Nat := 9

/-- One field of a stream descriptor is stored (R13 step 4, R14); the fields are numbered by the
descriptor table of section 1.1. The rate is clamped, not refused. -/
def Stream.store (d : Stream) (f : Nat) (v : BitVec 64) : Option Stream :=
  match f with
  | 0 => (boolValue v).map fun b => { d with admitted := b }
  | 1 => (fieldBelow 128 v.toNat).map fun g => { d with group := g }
  | 2 => (boolValue v).map fun b => { d with track := b }
  | 3 => (optValue 4 v).map fun c => { d with pinned := c }
  | 4 => (optValue 4 v).map fun c => { d with relocClass := c }
  | 5 => (fieldBelow 4 v.toNat).map fun c => { d with current := c }
  | 6 => (rangeValue 0 15 v).map fun n => { d with dwell := n }
  | 7 => some { d with rate := min v.toNat Config.rateMax }
  | 8 => (rangeValue 0 Config.countMax v).map fun n => { d with count := n }
  | _ => none

/-- The dwell that a selected current class or pinned class sets, unless dwell is selected (R14). -/
def Stream.afterWrite (dwell : Nat) (l : List (Byte × BitVec 64)) (d : Stream) : Stream :=
  if (selects l 3 || selects l 5) && !selects l 6 then { d with dwell := dwell } else d

/-- One field of a group descriptor is stored (R39 step 3): the four entries, the fallback order, the
seal age. -/
def Group.store (d : Group) (f : Nat) (v : BitVec 64) : Option Group :=
  match fieldBelow 4 f with
  | some c => (optValue 48 v).map fun e => { d with laneMap := d.laneMap.set c e }
  | none =>
    if f = 4 then
      if v.toNat = 0 then some { d with fallback := .colderFirst }
      else if v.toNat = 1 then some { d with fallback := .hotterFirst } else none
    else if f = 5 then (rangeValue 0 1000 v).map fun n => { d with sealAge := n }
    else none

/-- A setting is stored (R171 step 3); the fields are numbered by the table of section 11.6, the
thresholds as three fields. -/
def Settings.store (d : Settings) (f : Nat) (v : BitVec 64) : Option Settings :=
  match f with
  | 0 => if v.toNat = 16 ∨ v.toNat = 32 ∨ v.toNat = 48 then some { d with unitSize := v.toNat } else none
  | 1 => (rangeValue 16 2048 v).map fun n => { d with unitsPerBlock := n }
  | 2 => (rangeValue 1 48 v).map fun n => { d with laneLimit := n }
  | 3 => (rangeValue 1 255 v).map fun n => { d with period := n }
  | 4 => (rangeValue 1 8 v).map fun n => { d with shift := n }
  | 5 => (rangeValue 1 Config.rateMax v).map fun n => { d with t1 := n }
  | 6 => (rangeValue 1 Config.rateMax v).map fun n => { d with t2 := n }
  | 7 => (rangeValue 1 Config.rateMax v).map fun n => { d with t3 := n }
  | 8 => (rangeValue 0 65535 v).map fun n => { d with hysteresis := n }
  | 9 => (rangeValue 0 15 v).map fun n => { d with dwell := n }
  | 10 => (rangeValue 10 2000 v).map fun n => { d with resultTimeout := n }
  | 11 => (rangeValue 1 100 v).map fun n => { d with faultResidency := n }
  | 12 => (rangeValue 0 7 v).map fun n => { d with refillMark := n }
  | 13 => (rangeValue 1 15 v).map fun n => { d with share := n }
  | 14 => (setValue v).map fun x => { d with enables := x }
  | 15 => (setValue v).map fun x => { d with latchEnables := x }
  | _ => none

/-- The list selects one of the five read-only sweep items, fields 16 to 20 (R18, R171 step 1). -/
def selectsSweepItem (l : List (Byte × BitVec 64)) : Bool :=
  l.any fun p => 16 ≤ p.1.toNat && p.1.toNat ≤ 20

end Sys2Proof.Machine
end

