-- ==== Sys2Proof/Machine/Groups.lean ====
section
/-! DEFINITION. Group descriptors (spec/03): GROUP_TABLE_READ and GROUP_TABLE_WRITE. -/

namespace Sys2Proof.Machine
open Host (Outcome)

/-- The group of an index in range. -/
def groupOf (index : Nat) : Option GroupId := fieldBelow 128 index

/-- The descriptor a GROUP read returns (R48). -/
def lookGroup (s : State) (n : Nat) : ReplyData :=
  match groupOf n with
  | some g => .group (s.groups.get g)
  | none => .none

/-- GROUP_TABLE_READ (R48). -/
def execGroupTableRead (s : State) : Outcome State Fault Refusal :=
  commit s (readTable s .group lookGroup)

/-- The status that a selected entry naming a lane fails with, if it does (R40). Ownership is examined
before state. -/
def State.laneCheck (s : State) (g : GroupId) (l : LaneId) : Option Status :=
  let ln := s.lanes.get l
  if s.settings.laneLimit ≤ l.val then some .badValue
  else if ln.state = .closed then none
  else if ln.owner ≠ some g then some .conflict
  else if ln.state = .opening ∨ ln.state = .opened then none
  else some .state

/-- The lanes that the selected entries name, in ascending class order. -/
def namedLanes (l : List (Byte × BitVec 64)) (d : Group) : List LaneId :=
  allClasses.filterMap fun c => if selects l c.val then d.laneMap.get c else none

/-- The lanes an accepted write claims, once each and in ascending order (R41, R91). -/
def State.claimed (s : State) (named : List LaneId) : List LaneId :=
  allLanes.filter fun l => named.contains l && (s.lanes.get l).state == .closed

/-- A GROUP write's checks and its effect (R39 steps 2 to 5, R40, R41, R91). -/
def storeGroup (a : Admin) (g : GroupId) (l : List (Byte × BitVec 64)) (s : State) : State :=
  if repeats l then s.reply a .badValue
  else match storeAll Group.store (s.groups.get g) l with
    | none => s.reply a .badValue
    | some d =>
      let named := namedLanes l d
      match named.findSome? (s.laneCheck g) with
      | some status => s.reply a status
      | none =>
        let s1 := { s with groups := s.groups.set g d }
        ((s.claimed named).foldl (claimLane g) s1).reply a .ok

/-- GROUP_TABLE_WRITE (R39). -/
def execGroupTableWrite (s : State) : Outcome State Fault Refusal :=
  commit s (onAdmin s fun a s' =>
    match a.req with
    | .tableWrite code index l =>
      if tableOfCode code = some .group then
        match groupOf index.toNat with
        | some g => some (transmitterChoice (storeGroup a g l s'))
        | none => some (s'.reply a .badIndex)
      else none
    | _ => none)

end Sys2Proof.Machine
end

