-- ==== Sys2Proof/Machine/Intake.lean ====
section
/-! DEFINITION. Classification of WRITEs and RELOCATEs (spec/03 section 3.2, spec/04): WRITE,
WRITE_CLASSIFICATION, RELOCATE, RELOCATE_CLASSIFICATION. -/

namespace Sys2Proof.Machine
open Host (Outcome)

/-- The order in which the classes are searched from the wanted class (R37). -/
def searchOrder (f : Fallback) (c : HeatClass) : List HeatClass :=
  let colder := (allClasses.filter fun k => k < c).reverse
  let hotter := allClasses.filter fun k => c < k
  match f with
  | .colderFirst => c :: (colder ++ hotter)
  | .hotterFirst => c :: (hotter ++ colder)

/-- The fallback search (R37): the first class with an entry gives the lane. -/
def Group.search (g : Group) (c : HeatClass) : Option LaneId :=
  (searchOrder g.fallback c).findSome? fun k => g.laneMap.get k

/-- The seal age a lane reads when a filling unit starts: that of its owner (R44). -/
def State.ownerSealAge (s : State) (l : LaneId) : Nat :=
  match (s.lanes.get l).owner with
  | some g => (s.groups.get g).sealAge
  | none => 0

/-- The sectors of an accepted record are appended to its lane (R60). -/
def placeSectors (l : LaneId) (xs : List Sector) (s : State) : State :=
  s.setLane l ((s.lanes.get l).appendAll s.settings.unitSize (s.ownerSealAge l) xs)

/-- The lane found short of room counts the refusal (R53, R106). -/
def countBackoff (l : LaneId) (s : State) : State :=
  let ln := s.lanes.get l
  s.setLane l { ln with backoffs := min (ln.backoffs + 1) Config.backoffsMax }

/-- A WRITE is refused: BACKOFF, and the BACKOFF condition (R53). -/
def refuseWrite (w : WriteRec) (r : BackoffReason) (s : State) : State :=
  (s.createF (.backoff w.tag r)).raise .backoff

/-- A RELOCATE is refused: RELOC-BACKOFF, and the BACKOFF condition (R58). -/
def refuseRelocate (x : RelocateRec) (r : BackoffReason) (s : State) : State :=
  (s.createB (.relocBackoff x.tag r)).raise .backoff

/-- The sector entries of a WRITE: consecutive LBAs and handles, wrapping (R52, R56). -/
def writeSectors (w : WriteRec) (g : GroupId) : List Sector :=
  (List.range w.length).map fun i =>
    { tag := .front w.tag, group := g, stream := w.stream,
      lba := w.lba + BitVec.ofNat 48 i, handle := w.handle + BitVec.ofNat 32 i }

/-- The sector entries of a RELOCATE, in list order (R58). -/
def relocateSectors (x : RelocateRec) (g : GroupId) : List Sector :=
  x.sectors.map fun p =>
    { tag := .reloc x.tag, group := g, stream := x.stream, lba := p.1, handle := p.2 }

/-- The tag record of a record just accepted (R56, R58). -/
def acceptedTag (n : Nat) (i : StreamId) : TagRecord :=
  { inUse := true, remaining := n, failed := false, length := n, stream := i }

/-- The write counters of a stream after a WRITE of `n` sectors is accepted (R7, R8). -/
def Stream.countWrite (d : Stream) (n : Nat) : Stream :=
  { d with count := min (d.count + n) Config.countMax, written := d.written + BitVec.ofNat 40 n }

/-- Checks 3 to 5 of a WRITE and its acceptance, in one classification access (R53, R56). -/
def classifyWrite (w : WriteRec) (s : State) : State :=
  let d := s.streams.get w.stream
  if d.admitted then
    match (s.groups.get d.group).search (d.pinned.getD d.current) with
    | none => refuseWrite w .noLane s
    | some l =>
      if w.length ≤ (s.lanes.get l).room s.settings.unitSize then
        let s1 := s.setFrontTag w.tag (acceptedTag w.length w.stream)
        (placeSectors l (writeSectors w d.group) s1).setStream w.stream (d.countWrite w.length)
      else refuseWrite w .noRoom (countBackoff l s)
  else refuseWrite w .closed s

/-- Checks 3 and 4 of a RELOCATE and its acceptance, in one classification access (R57, R58). -/
def classifyRelocate (x : RelocateRec) (s : State) : State :=
  let d := s.streams.get x.stream
  match (s.groups.get d.group).search (d.relocClass.getD 0) with
  | none => refuseRelocate x .noLane s
  | some l =>
    if x.sectors.length ≤ (s.lanes.get l).room s.settings.unitSize then
      placeSectors l (relocateSectors x d.group)
        (s.setRelocTag x.tag (acceptedTag x.sectors.length x.stream))
    else refuseRelocate x .noRoom (countBackoff l s)

/-- WRITE (R53 steps 1 and 2): the classifier takes a WRITE; refused POWER or TAG-IN-USE, or left in
hand to wait for its access. -/
def execWrite (s : State) : Outcome State Fault Refusal :=
  commit s (match s.nextFront with
    | some (.write w) =>
      let s' := s.takeFront
      some (if s'.mode ≠ .run then refuseWrite w .power s'
        else if (s'.frontTags.get w.tag).inUse then refuseWrite w .tagInUse s'
        else { s' with inHand := some (.write w) })
    | _ => none)

/-- WRITE_CLASSIFICATION (R53 steps 3 to 5, R56). A mode that changed while the record was in hand was
taken before it, and refuses it POWER without an access (R54; log entry 7). -/
def execWriteClassification (s : State) : Outcome State Fault Refusal :=
  commit s (match s.inHand with
    | some (.write w) =>
      let s' := { s with inHand := none }
      if s.mode ≠ .run then some (refuseWrite w .power s')
      else if s.portServesClassifier then some (transmitterChoice (classifyWrite w s'.countAccess))
      else none
    | _ => none)

/-- RELOCATE (R57 steps 1 and 2). -/
def execRelocate (s : State) : Outcome State Fault Refusal :=
  commit s (match s.nextReloc with
    | some x =>
      let s' := s.takeReloc
      some (if s'.mode ≠ .run then refuseRelocate x .power s'
        else if (s'.relocTags.get x.tag).inUse then refuseRelocate x .tagInUse s'
        else { s' with inHand := some (.relocate x) })
    | none => none)

/-- RELOCATE_CLASSIFICATION (R57 steps 3 and 4, R58), with the mode as in WRITE_CLASSIFICATION. -/
def execRelocateClassification (s : State) : Outcome State Fault Refusal :=
  commit s (match s.inHand with
    | some (.relocate x) =>
      let s' := { s with inHand := none }
      if s.mode ≠ .run then some (refuseRelocate x .power s')
      else if s.portServesClassifier then some (transmitterChoice (classifyRelocate x s'.countAccess))
      else none
    | _ => none)

end Sys2Proof.Machine
end

