-- ==== Sys2Proof/Machine/Links.lean ====
section
/-! DEFINITION. The links (spec/08 section 8.7, spec/11 sections 11.1 to 11.4): arrivals, malformed
records, the B-link hold, and the ends of sending. -/

namespace Sys2Proof.Machine
open Host (Outcome)

/-- A well-formed record is offered to the front inbound queue: it joins the end, or is answered when
the queue is full (R163). -/
def offerFront (r : FrontRec) (full : State → State) (s : State) : State :=
  if s.frontQueue.length < Config.frontQueueCap then
    { s with frontQueue := s.frontQueue ++ [r], fhold := fholdAfter s.fhold (s.frontQueue.length + 1) }
  else full s

/-- WRITE_ARRIVAL (R163): malformed (R162), queued, or answered BACKOFF QUEUE-FULL. -/
def execWriteArrival (body : List Byte) (s : State) : Outcome State Fault Refusal :=
  commit s (some (match parseWrite body with
    | none => s.raise .linkFormat
    | some w => offerFront (.write w)
        (fun t => (t.createF (.backoff w.tag .queueFull)).raise .backoff) s))

/-- ADMIN_ARRIVAL (R163): malformed (R162), queued, or answered ADMIN-REPLY FULL. -/
def execAdminArrival (body : List Byte) (s : State) : Outcome State Fault Refusal :=
  commit s (some (match parseAdmin body with
    | none => s.raise .linkFormat
    | some a => offerFront (.admin a) (fun t => t.reply a .full) s))

/-- RELOCATE_ARRIVAL (R165): malformed (R162), queued, or answered RELOC-BACKOFF QUEUE-FULL. -/
def execRelocateArrival (body : List Byte) (s : State) : Outcome State Fault Refusal :=
  commit s (some (match parseRelocate body with
    | none => s.raise .linkFormat
    | some x =>
      if s.relocQueue.length < Config.relocQueueCap then { s with relocQueue := s.relocQueue ++ [x] }
      else (s.createB (.relocBackoff x.tag .queueFull)).raise .backoff))

/-- MALFORMED_RECORD (R162): the bytes are discarded whole and LINK-FORMAT is raised. Not due for the
bytes of a well-formed record. -/
def execMalformedRecord (link : Link) (bytes : List Byte) (s : State) : Outcome State Fault Refusal :=
  commit s (match parseRecord link bytes with
    | none => some (s.raise .linkFormat)
    | some _ => none)

/-- The record is a PROGRAM. -/
def BRecord.isProgram : BRecord → Bool
  | .program .. => true
  | _ => false

/-- A PROGRAM is being sent (R138). -/
def BLink.sendsProgram (t : BLink) : Bool := t.sending.any BRecord.isProgram

/-- A HOLD-ACK is in the control list or being sent (R139; log entry 11). -/
def BLink.ackWaits (t : BLink) : Bool := t.sending == some .holdAck || t.control.contains .holdAck

/-- A protocol violation of the hold (R140). -/
def violateHold (s : State) : State := s.raise .holdProtocol

/-- HOLD_ON (R138, R140). -/
def execHoldOn (s : State) : Outcome State Fault Refusal :=
  commit s (some (match s.hold with
    | .free =>
      if s.bLink.sendsProgram then { s with hold := .stopping }
      else State.createB { s with hold := .held } .holdAck
    | .stopping | .held | .releasing => violateHold s))

/-- HOLD_OFF (R139, R140). -/
def execHoldOff (s : State) : Outcome State Fault Refusal :=
  commit s (some (match s.hold with
    | .held =>
      if s.bLink.ackWaits then { s with hold := .releasing }
      else transmitterChoice (State.createB { s with hold := .free } .holdClear)
    | .stopping => { s with hold := .releasing }
    | .free | .releasing => violateHold s))

/-- What the hold does when the sending of a record has ended (R137, R138, R139). The end of a PROGRAM
in STOPPING or RELEASING creates the HOLD-ACK; the end of the HOLD-ACK in RELEASING frees the port. -/
def holdAfterSend (r : BRecord) (s : State) : State :=
  match r with
  | .program .. =>
    match s.hold with
    | .stopping => State.createB { s with hold := .held } .holdAck
    | .releasing => s.createB .holdAck
    | .free | .held => s
  | .holdAck =>
    if s.hold = .releasing ∧ s.bLink.ackWaits = false then
      State.createB { s with hold := .free } .holdClear
    else s
  | _ => s

/-- B_LINK_SEND_END (R86): the record's sending ends, the hold follows, the next record is chosen. Not
due while the transmitter is idle. -/
def execBLinkSendEnd (s : State) : Outcome State Fault Refusal :=
  commit s (match s.bLink.sending with
    | some r =>
      let s1 := { s with bLink := { s.bLink with sending := none } }
      some (transmitterChoice (holdAfterSend r s1))
    | none => none)

/-- F_LINK_SEND_END (R166): the record's sending ends and the next of the list is sent. Not due while the
transmitter is idle. -/
def execFLinkSendEnd (s : State) : Outcome State Fault Refusal :=
  commit s (match s.fLink.sending with
    | some _ => some { s with fLink := FLink.advance { s.fLink with sending := none } }
    | none => none)

end Sys2Proof.Machine
end

