-- ==== Sys2Proof/Machine/Power.lean ====
section
/-! DEFINITION. Resets and the hold-up line (spec/09): POWER_ON, LINE_RESET, RESET_END,
HOLDUP_N_ASSERTED, HOLDUP_N_DEASSERTED, SOFT_RESET, WARNING_TAKEN_AFTER_SOFT_RESET. -/

namespace Sys2Proof.Machine
open Host (Outcome)

/-- The part as power-on or a line reset leaves it, held in reset (R147). The input HOLDUP_N keeps its
level, and the queue of commands and the counter of free values are not the part's. -/
def heldState (s : State) (kind : ResetKind) (softResets : Nat) : State :=
  { State.reset with
    inReset := true
    holdupPin := s.holdupPin
    lastReset := kind
    softResets := softResets
    draws := s.draws
    pending := s.pending }

/-- POWER_ON (R147, R150). -/
def execPowerOn (s : State) : Outcome State Fault Refusal := .next (heldState s .powerOn 0)

/-- LINE_RESET (R147, R150): the soft-reset count is kept. -/
def execLineReset (s : State) : Outcome State Fault Refusal := .next (heldState s .line s.softResets)

/-- RESET_END (R147): the part starts work and takes the level of HOLDUP_N; an asserted level is taken as
an assertion in RUN. Not due unless the part is held in reset. -/
def execResetEnd (s : State) : Outcome State Fault Refusal :=
  .next (if s.inReset then
    let s1 := { s with inReset := false, warning := s.holdupPin }
    if s.holdupPin then (beginFlush s1).latchLevels else s1.latchLevels
  else s)

/-- HOLDUP_N_ASSERTED (R143, R146): in RUN the flush begins, otherwise the level is recorded. Held in
reset, only the input's level changes (R147). -/
def execHoldupAsserted (s : State) : Outcome State Fault Refusal :=
  let s0 := { s with holdupPin := true }
  commit s0 (some (if s0.mode = .run then beginFlush s0 else { s0 with warning := true }))

/-- HOLDUP_N_DEASSERTED (R146): the level is recorded; FLUSHED becomes RUN. -/
def execHoldupDeasserted (s : State) : Outcome State Fault Refusal :=
  let s0 := { s with holdupPin := false }
  commit s0 (some { s0 with warning := false, mode := if s0.mode = .flushed then .run else s0.mode })

/-- A lane's blocks in the order SOFT-RESET hands them back: current, then reserve top to bottom (R148). -/
def Lane.blocks (ln : Lane) : List BlockAddr :=
  ln.current.toList ++ ln.reserve

/-- Every lane hands back its blocks with reason RESET, lane 0 first (R148 step 1). -/
def handBackAll (s : State) : State :=
  allLanes.foldl (fun t l => givebackAll l .reset (s.lanes.get l).blocks t) s

/-- Steps 1 to 5 of a SOFT-RESET (R148). The B-link transmitter keeps what it sends and its control list,
and the round-robin begins again behind lane 47 (R85). -/
def softResetState (s : State) : State :=
  { handBackAll s with
    bLink := { (handBackAll s).bLink with lastServed := 47 }
    lanes := .replicate 48 Lane.reset
    groups := s.groups.map fun g => { g with laneMap := Group.noLanes }
    frontTags := .replicate 4096 TagRecord.reset
    relocTags := .replicate 512 TagRecord.reset
    relocQueue := []
    shareCount := 0
    latches := 0
    captures := []
    captureLost := false
    hold := .free
    sweep := Sweep.reset
    classifierRun := 0
    mode := .run
    lastReset := .soft
    softResets := min (s.softResets + 1) Config.lostTicksMax }

/-- SOFT_RESET (R148): executed as an ADMIN in queue order, in every intake mode. -/
def execSoftReset (s : State) : Outcome State Fault Refusal :=
  commit s (onAdmin s fun a s' =>
    match a.req with
    | .softReset => some ((softResetState s').reply a .ok)
    | _ => none)

/-- WARNING_TAKEN_AFTER_SOFT_RESET (R149): a warning level still asserted when a SOFT-RESET made the mode
RUN is taken as an assertion in RUN. -/
def execWarningTakenAfterSoftReset (s : State) : Outcome State Fault Refusal :=
  commit s (if s.warningDue then some (beginFlush s) else none)

end Sys2Proof.Machine
end

