-- ==== Sys2Proof/Machine/Results.lean ====
section
/-! DEFINITION. Program results (spec/08, sections 8.2 to 8.4): RESULT_OK, RESULT_FAIL, RESULT_ABORTED,
RESULT_TIMEOUT. -/

namespace Sys2Proof.Machine
open Host (Outcome)

/-- A RESULT matched to an outstanding unit of the lane named, which leaves the list, or unmatched
(R122, R123). A CLOSED or OPENING lane holds no outstanding unit (R123). -/
def onResult (f : LaneField) (b : BlockAddr) (i : Fin 2048) (k : LaneId → Issued → State → State)
    (s : State) : State :=
  match LaneField.lane f with
  | none => s.raise .unmatchedResult
  | some l =>
    let ln := s.lanes.get l
    if ln.state = .closed ∨ ln.state = .opening then s.raise .unmatchedResult
    else match takeMatch b i.val ln.outstanding with
      | none => s.raise .unmatchedResult
      | some (u, rest) => transmitterChoice (k l u (s.setLane l { ln with outstanding := rest }))

/-- The unit's block is the lane's current block now (R125). -/
def Lane.blockCurrent (ln : Lane) (u : Issued) : Bool := ln.current == some u.block

/-- A unit's sectors are settled, and the lane does what its emptier list calls for (R124, R101). -/
def settleUnit (programmed : Bool) (l : LaneId) (u : Issued) (s : State) : State :=
  flushCheck (afterUnit l (settleEntries programmed u.entries s))

/-- The third failure: the unit's sectors are settled failed and the lane enters FAULT (R129). -/
def failLane (l : LaneId) (u : Issued) (s : State) : State :=
  flushCheck (faultEntry l (settleEntries false u.entries s))

/-- The current block is abandoned (R126 steps 2 and 3): GIVEBACK BAD at the unit's index, then the lane
seeks a block. -/
def abandonBlock (l : LaneId) (u : Issued) (s : State) : State :=
  seekBlock l ((s.setLane l (s.lanes.get l).dropBlock).giveback
    (LaneId.field l) u.block .bad (some u.index))

/-- The unit returns to the ready queue (R128). -/
def requeueUnit (l : LaneId) (u : Issued) (attempt : Nat) (s : State) : State :=
  s.setLane l ((s.lanes.get l).requeue u attempt)

/-- What a matched FAIL does once raised and captured (R101, R126, R127, R129). -/
def failUnit (l : LaneId) (u : Issued) (s : State) : State :=
  let ln := s.lanes.get l
  if ln.state = .fault then settleUnit false l u s
  else if Config.lastAttempt ≤ u.attempt then failLane l u s
  else if ln.blockCurrent u then requeueUnit l u (u.attempt + 1) (abandonBlock l u s)
  else requeueUnit l u (u.attempt + 1) s

/-- What a matched ABORTED does (R101, R129, R130). -/
def abortUnit (l : LaneId) (u : Issued) (s : State) : State :=
  let ln := s.lanes.get l
  if ln.state = .fault then settleUnit false l u s
  else if ln.blockCurrent u then
    if Config.lastAttempt ≤ u.attempt then failLane l u s
    else requeueUnit l u (u.attempt + 1) (abandonBlock l u s)
  else requeueUnit l u u.attempt s

/-- RESULT_OK (R124). -/
def execResultOk (f : LaneField) (b : BlockAddr) (i : Fin 2048) (s : State) : Outcome State Fault Refusal :=
  commit s (some (onResult f b i (settleUnit true) s))

/-- RESULT_FAIL (R126, R127, R129, R131). -/
def execResultFail (f : LaneField) (b : BlockAddr) (i : Fin 2048) (s : State) : Outcome State Fault Refusal :=
  commit s (some (onResult f b i
    (fun l u t => failUnit l u (takeCapture .programFail l u (t.raise .programFail))) s))

/-- RESULT_ABORTED (R130). -/
def execResultAborted (f : LaneField) (b : BlockAddr) (i : Fin 2048) (s : State) : Outcome State Fault Refusal :=
  commit s (some (onResult f b i abortUnit s))

/-- What the expiry of an outstanding unit's result timer does, the unit having left the list (R133). -/
def timeoutUnit (l : LaneId) (u : Issued) (s : State) : State :=
  let s1 := takeCapture .resultTimeout l u ((settleEntries false u.entries s).raise .resultTimeout)
  let ln := s1.lanes.get l
  flushCheck (if ln.state = .opened ∨ ln.state = .draining then faultEntry l s1
    else if ln.state = .fault then faultedHandback l s1
    else s1)

/-- RESULT_TIMEOUT (R133): of the unit at a place of the lane's outstanding list, whose timer is due. -/
def execResultTimeout (l : LaneId) (place : Fin 4) (s : State) : Outcome State Fault Refusal :=
  commit s (match takeDue place.val (s.lanes.get l).outstanding with
    | some (u, rest) => some (timeoutUnit l u (s.setLane l { s.lanes.get l with outstanding := rest }))
    | none => none)

end Sys2Proof.Machine
end

