-- ==== Sys2Proof/Machine/SettingsRecord.lean ====
section
/-! DEFINITION. The settings record (spec/11, section 11.6): SETTINGS_TABLE_READ and
SETTINGS_TABLE_WRITE. -/

namespace Sys2Proof.Machine
open Host (Outcome)

/-- The settings record and the five sweep items (R18, R170). -/
def lookSettings (s : State) (_ : Nat) : ReplyData := .settings s.settings s.sweep

/-- SETTINGS_TABLE_READ (R170). -/
def execSettingsTableRead (s : State) : Outcome State Fault Refusal :=
  commit s (readTable s .settings lookSettings)

/-- Every lane numbered at or above `n` is CLOSED (R43). -/
def State.closedFrom (s : State) (n : Nat) : Bool :=
  allLanes.all fun l => l.val < n || (s.lanes.get l).state == .closed

/-- The list selects a threshold (R34). -/
def selectsThreshold (l : List (Byte × BitVec 64)) : Bool := selects l 5 || selects l 6 || selects l 7

/-- A SETTINGS write's status and, when it is OK, the settings as they will stand (R171). DEDUCED: an empty
list passes step 2, is answered OK and stores nothing (log entry 24). -/
def settingsWrite (s : State) (l : List (Byte × BitVec 64)) : Status × Settings :=
  let old := s.settings
  if selectsSweepItem l then (.readOnly, old)
  else if repeats l then (.badValue, old)
  else match storeAll Settings.store old l with
    | none => (.badValue, old)
    | some new =>
      if selectsThreshold l ∧ ¬ (new.t1 < new.t2 ∧ new.t2 < new.t3) then (.badValue, old)
      else if (new.unitSize ≠ old.unitSize ∨ new.unitsPerBlock ≠ old.unitsPerBlock)
          ∧ s.closedFrom 0 = false then (.state, old)
      else if new.laneLimit < old.laneLimit ∧ s.closedFrom new.laneLimit = false then (.state, old)
      else (.ok, new)

/-- SETTINGS_TABLE_WRITE (R171). -/
def execSettingsTableWrite (s : State) : Outcome State Fault Refusal :=
  commit s (onAdmin s fun a s' =>
    match a.req with
    | .tableWrite code index l =>
      if tableOfCode code = some .settings then
        if index.toNat = 0 then
          let r := settingsWrite s' l
          some (State.reply { s' with settings := r.2 } a r.1)
        else some (s'.reply a .badIndex)
      else none
    | _ => none)

end Sys2Proof.Machine
end

