-- ==== Sys2Proof/Machine/Streams.lean ====
section
/-! DEFINITION. Management access to the stream table through the port (spec/01, section 1.5):
STREAM_TABLE_READ and STREAM_TABLE_WRITE. -/

namespace Sys2Proof.Machine
open Host (Outcome)

/-- The STREAM request the classifier works on: the one in hand that waits for the port, or the next
front record, taken now (R49; log entry 5). -/
def State.streamRequest (s : State) : Option (Admin × State) :=
  match s.inHand with
  | some (.streamAdmin a) => some (a, { s with inHand := none })
  | some _ => none
  | none =>
    match s.nextFront with
    | some (.admin a) => some (a, s.takeFront)
    | _ => none

/-- A STREAM access with its index in range: served now, or left in hand to wait while the port serves
the visit (R9, R10). A request in hand that is not served yet is not due. -/
def streamAccess (s : State) (a : Admin) (s' : State) (serve : State → State) : Option State :=
  if s'.portServesClassifier then some (serve s'.countAccess)
  else if s.inHand.isSome then none
  else some { s' with inHand := some (.streamAdmin a) }

/-- The stream id of an index in range. -/
def streamOf (index : BitVec 16) : Option StreamId := fieldBelow 1024 index.toNat

/-- STREAM_TABLE_READ (R12): BAD-INDEX without an access, or the whole descriptor. -/
def execStreamTableRead (s : State) : Outcome State Fault Refusal :=
  commit s (match s.streamRequest with
    | some (a, s') =>
      match a.req with
      | .tableRead code index =>
        if tableOfCode code = some .stream then
          match streamOf index with
          | some i => streamAccess s a s' fun t => t.reply a .ok (.stream (t.streams.get i))
          | none => some (s'.reply a .badIndex)
        else none
      | _ => none
    | none => none)

/-- The checks and the store of a STREAM write, inside its one access (R13 steps 2 to 5, R14). -/
def storeStream (a : Admin) (i : StreamId) (l : List (Byte × BitVec 64)) (s : State) : State :=
  if selects l writtenField then s.reply a .readOnly
  else if repeats l then s.reply a .badValue
  else match storeAll Stream.store (s.streams.get i) l with
    | some d => (s.setStream i (d.afterWrite s.settings.dwell l)).reply a .ok
    | none => s.reply a .badValue

/-- STREAM_TABLE_WRITE (R13, R14). -/
def execStreamTableWrite (s : State) : Outcome State Fault Refusal :=
  commit s (match s.streamRequest with
    | some (a, s') =>
      match a.req with
      | .tableWrite code index l =>
        if tableOfCode code = some .stream then
          match streamOf index with
          | some i => streamAccess s a s' (storeStream a i l)
          | none => some (s'.reply a .badIndex)
        else none
      | _ => none
    | none => none)

end Sys2Proof.Machine
end

