-- ==== Sys2Proof/Machine/Supply.lean ====
section
/-! DEFINITION. Grants (spec/07, section 7.4): GRANT. -/

namespace Sys2Proof.Machine
open Host (Outcome)

/-- Step 1 of the checks fails: the lane is CLOSED, in FAULT, or DRAINING with a current block (R116). -/
def Lane.refusesGrant (ln : Lane) : Bool :=
  ln.state == .closed || ln.state == .fault || (ln.state == .draining && ln.current.isSome)

/-- A GRANT not taken is handed back and raises GRANT-REFUSED (R116). -/
def refuseGrant (f : LaneField) (b : BlockAddr) (r : GivebackReason) (s : State) : State :=
  (s.giveback f b r).raise .grantRefused

/-- An accepted GRANT (R117): pushed, the want flag cleared, popped at once if the lane needs a block. -/
def acceptGrant (l : LaneId) (b : BlockAddr) (s : State) : State :=
  let ln := s.lanes.get l
  seekBlock l (s.setLane l { ln with reserve := b :: ln.reserve, want := false })

/-- The checks of a GRANT in their order, and its acceptance (R116, R117). -/
def takeGrant (f : LaneField) (b : BlockAddr) (s : State) : State :=
  match LaneField.lane f with
  | none => refuseGrant f b .refused s
  | some l =>
    if (s.lanes.get l).refusesGrant then refuseGrant f b .refused s
    else if s.holdsBlock b then refuseGrant f b .duplicate s
    else if Config.reserveCap ≤ (s.lanes.get l).reserve.length then refuseGrant f b .full s
    else acceptGrant l b s

/-- GRANT (R116, R117). A lane it makes issuable is a candidate of the PROGRAM choice (R86). -/
def execGrant (f : LaneField) (b : BlockAddr) (s : State) : Outcome State Fault Refusal :=
  commit s (some (transmitterChoice (takeGrant f b s)))

end Sys2Proof.Machine
end

