-- ==== Sys2Proof/Machine/Tables.lean ====
section
/-! DEFINITION. The read-only tables (spec/04 section 4.5, spec/09 section 9.4, spec/11 section 11.5):
LANE, UNIT, FRONT-TAG, RELOC-TAG and RESET-CAUSE, and the TABLE-WRITE that reaches no writable table. -/

namespace Sys2Proof.Machine
open Host (Outcome)

/-- The lane summary (R168). -/
def Lane.summary (ln : Lane) : LaneSummary :=
  { state := ln.state, owner := ln.owner, residency := ln.residency,
    fillCount := ln.filling.length, sealPending := ln.sealPending, sealAge := ln.sealAge,
    readyCount := ln.readyCount, requeuedCount := ln.requeued.length,
    outstanding := ln.outstanding.length, current := ln.current,
    nextIndex := ln.nextIndex, reserve := ln.reserve,
    want := ln.want, starved := ln.starved, unitsIssued := ln.unitsIssued,
    sectorsPadded := ln.sectorsPadded, blocksCompleted := ln.blocksCompleted,
    backoffs := ln.backoffs }

/-- What a LANE read returns. -/
def lookLane (s : State) (n : Nat) : ReplyData :=
  match fieldBelow 48 n with
  | some l => .lane (s.lanes.get l).summary
  | none => .none

/-- LANE_TABLE_READ (R168). -/
def execLaneTableRead (s : State) : Outcome State Fault Refusal :=
  commit s (readTable s .lane lookLane)

/-- One of a lane's thirteen slots: the filling unit, the ready queue, the outstanding list (R169). -/
def Lane.slot (ln : Lane) (n : Nat) : UnitSlot :=
  if n = 0 then .filling ln.filling
  else if n ≤ 8 then
    match ln.ready[n - 1]? with
    | some u => .ready u (decide (n - 1 < ln.requeued.length))
    | none => .empty
  else
    match ln.outstanding[n - 9]? with
    | some u => .outstanding u
    | none => .empty

/-- What a UNIT read returns: index lane × 13 + slot (R169). -/
def lookUnit (s : State) (n : Nat) : ReplyData :=
  match fieldBelow 48 (n / 13) with
  | some l => .unit ((s.lanes.get l).slot (n % 13))
  | none => .none

/-- UNIT_TABLE_READ (R169). -/
def execUnitTableRead (s : State) : Outcome State Fault Refusal :=
  commit s (readTable s .unit lookUnit)

/-- What a FRONT-TAG read returns. -/
def lookFrontTag (s : State) (n : Nat) : ReplyData :=
  match fieldBelow 4096 n with
  | some t => .tag (s.frontTags.get t)
  | none => .none

/-- FRONT_TAG_TABLE_READ (R64). -/
def execFrontTagTableRead (s : State) : Outcome State Fault Refusal :=
  commit s (readTable s .frontTag lookFrontTag)

/-- What a RELOC-TAG read returns. -/
def lookRelocTag (s : State) (n : Nat) : ReplyData :=
  match fieldBelow 512 n with
  | some t => .tag (s.relocTags.get t)
  | none => .none

/-- RELOC_TAG_TABLE_READ (R64). -/
def execRelocTagTableRead (s : State) : Outcome State Fault Refusal :=
  commit s (readTable s .relocTag lookRelocTag)

/-- What a RESET-CAUSE read returns (R150). -/
def lookResetCause (s : State) (_ : Nat) : ReplyData :=
  .resetCause s.lastReset s.softResets s.mode s.warning

/-- RESET_CAUSE_TABLE_READ (R150). -/
def execResetCauseTableRead (s : State) : Outcome State Fault Refusal :=
  commit s (readTable s .resetCause lookResetCause)

/-- The three tables a TABLE-WRITE may write (spec/11, section 11.5). -/
def writable (t : TableName) : Bool := t == .stream || t == .group || t == .settings

/-- TABLE_WRITE (R167): a TABLE-WRITE whose table is read-only or unknown. A TABLE-READ of an unknown
table has no row of its own and is answered here too (log entry 6). -/
def execTableWrite (s : State) : Outcome State Fault Refusal :=
  commit s (onAdmin s fun a s' =>
    match a.req with
    | .tableWrite code index _ =>
      match tableOfCode code with
      | none => some (s'.reply a .badTable)
      | some t =>
        if writable t then none
        else if index.toNat < tableSize t then some (s'.reply a .readOnly)
        else some (s'.reply a .badIndex)
    | .tableRead code _ =>
      match tableOfCode code with
      | none => some (s'.reply a .badTable)
      | some _ => none
    | _ => none)

end Sys2Proof.Machine
end

