-- ==== Sys2Proof/Machine/Dispatch.lean ====
section
/-! DEFINITION. The meaning of every command: one arm for each row of spec/opcode_table.json. -/

namespace Sys2Proof.Machine
open Host (Outcome)

def exec (i : Instr) (s : State) : Host.Outcome State Fault Refusal :=
  match i with
  | .powerOn => Sys2Proof.Machine.execPowerOn s
  | .lineReset => Sys2Proof.Machine.execLineReset s
  | .resetEnd => Sys2Proof.Machine.execResetEnd s
  | .holdupAsserted => Sys2Proof.Machine.execHoldupAsserted s
  | .holdupDeasserted => Sys2Proof.Machine.execHoldupDeasserted s
  | .sampleTick => Sys2Proof.Machine.execSampleTick s
  | .visit => Sys2Proof.Machine.execVisit s
  | .sealAgeExpiry lane => Sys2Proof.Machine.execSealAgeExpiry lane s
  | .resultTimeout lane place => Sys2Proof.Machine.execResultTimeout lane place s
  | .faultResidencyExpiry lane => Sys2Proof.Machine.execFaultResidencyExpiry lane s
  | .writeArrival body => Sys2Proof.Machine.execWriteArrival body s
  | .adminArrival body => Sys2Proof.Machine.execAdminArrival body s
  | .relocateArrival body => Sys2Proof.Machine.execRelocateArrival body s
  | .write => Sys2Proof.Machine.execWrite s
  | .writeClassification => Sys2Proof.Machine.execWriteClassification s
  | .relocate => Sys2Proof.Machine.execRelocate s
  | .relocateClassification => Sys2Proof.Machine.execRelocateClassification s
  | .streamTableRead => Sys2Proof.Machine.execStreamTableRead s
  | .streamTableWrite => Sys2Proof.Machine.execStreamTableWrite s
  | .groupTableRead => Sys2Proof.Machine.execGroupTableRead s
  | .groupTableWrite => Sys2Proof.Machine.execGroupTableWrite s
  | .settingsTableRead => Sys2Proof.Machine.execSettingsTableRead s
  | .settingsTableWrite => Sys2Proof.Machine.execSettingsTableWrite s
  | .laneTableRead => Sys2Proof.Machine.execLaneTableRead s
  | .unitTableRead => Sys2Proof.Machine.execUnitTableRead s
  | .frontTagTableRead => Sys2Proof.Machine.execFrontTagTableRead s
  | .relocTagTableRead => Sys2Proof.Machine.execRelocTagTableRead s
  | .resetCauseTableRead => Sys2Proof.Machine.execResetCauseTableRead s
  | .tableWrite => Sys2Proof.Machine.execTableWrite s
  | .drain => Sys2Proof.Machine.execDrain s
  | .stop => Sys2Proof.Machine.execStop s
  | .clear => Sys2Proof.Machine.execClear s
  | .conditionRead => Sys2Proof.Machine.execConditionRead s
  | .conditionClear => Sys2Proof.Machine.execConditionClear s
  | .captureTake => Sys2Proof.Machine.execCaptureTake s
  | .softReset => Sys2Proof.Machine.execSoftReset s
  | .resultOk lane block index => Sys2Proof.Machine.execResultOk lane block index s
  | .resultFail lane block index => Sys2Proof.Machine.execResultFail lane block index s
  | .resultAborted lane block index => Sys2Proof.Machine.execResultAborted lane block index s
  | .grant lane block => Sys2Proof.Machine.execGrant lane block s
  | .holdOn => Sys2Proof.Machine.execHoldOn s
  | .holdOff => Sys2Proof.Machine.execHoldOff s
  | .bLinkSendEnd => Sys2Proof.Machine.execBLinkSendEnd s
  | .fLinkSendEnd => Sys2Proof.Machine.execFLinkSendEnd s
  | .warningTakenAfterSoftReset => Sys2Proof.Machine.execWarningTakenAfterSoftReset s
  | .malformedRecord link bytes => Sys2Proof.Machine.execMalformedRecord link bytes s

end Sys2Proof.Machine
end

