-- ==== Sys2Proof/Machine/Step.lean ====
section
/-! DEFINITION. One step: the command at the front of the queue, or on an empty queue what is due, what
the port serves, or the millisecond tick. -/

namespace Sys2Proof.Machine
open Host (Outcome)

/-- With an access waiting at the port, a free value says which comes first, the end of the access that the
arbiter serves or the next millisecond tick (R10, R20; log entry 25). -/
def portOrTick (c : Instr) (s : State) : Outcome State Fault Refusal :=
  let d := { s with draws := s.draws + 1 }
  if Config.accessEndsBeforeTick s.draws then exec c d else .next (msTick d)

/-- What the machine does when no command waits (log entry 2): nothing while held in reset (R147), the
first due step, what the port serves or a millisecond tick, or else one millisecond tick. -/
def idleStep (s : State) : Outcome State Fault Refusal :=
  if s.inReset then .next s
  else match dueCommand s with
    | some c => exec c s
    | none =>
      match s.portCommand with
      | some c => portOrTick c s
      | none => .next (msTick s)

/-- One step of the machine: the command at the front of the queue is taken, and runs on the state with
the queue's rest (log entry 1). -/
def step (s : State) : Outcome State Fault Refusal :=
  match s.pending with
  | c :: rest => exec c { s with pending := rest }
  | [] => idleStep s

/-- The command that a word spells, put at the front of the queue; no word spells one (log entry 1). -/
def State.withFetchWord (s : State) (nbits w : Nat) : State :=
  match decodeTableWord nbits w with
  | some c => { s with pending := c :: s.pending }
  | none => s

end Sys2Proof.Machine
end

