-- ==== Sys2Proof/Machine/Layout.lean ====
section
/-! DEFINITION. The outbound records as bytes (R173), and the items of reply data. Codes the manual does
not give are the free constants of Config (log entry 15). -/

namespace Sys2Proof.Machine

/-- The code of a BACKOFF or RELOC-BACKOFF reason (R173). -/
def backoffCode : BackoffReason → Nat
  | .power => 0 | .tagInUse => 1 | .closed => 2 | .noLane => 3 | .noRoom => 4 | .queueFull => 5

/-- The code of a GIVEBACK reason (R173). -/
def givebackCode : GivebackReason → Nat
  | .unused => 0 | .partlyUsed => 1 | .bad => 2 | .faulted => 3 | .refused => 4 | .duplicate => 5
  | .full => 6 | .reset => 7

/-- The code of a reply status (R173). -/
def statusCode : Status → Nat
  | .ok => 0 | .badTable => 1 | .badIndex => 2 | .badValue => 3 | .readOnly => 4 | .conflict => 5
  | .state => 6 | .tooSoon => 7 | .full => 8

/-- The outcome of a DONE or RELOC-DONE: 0 OK, 1 FAILED (R173). -/
def outcomeCode (failed : Bool) : Nat := if failed then 1 else 0

/-- An entry of a PROGRAM: 16 bytes, flags, stream, LBA and handle, all other bytes 0 (R173). The tag
and the group stay inside the part (R69). -/
def layoutEntry : Entry → List Byte
  | .pad => 1#8 :: List.replicate 15 0
  | .sector x =>
    (match x.tag with | .front _ => 0#8 | .reloc _ => 2#8) :: 0
      :: (leBytes 2 x.stream.val ++ leBytes 6 x.lba.toNat ++ leBytes 4 x.handle.toNat ++ [0, 0])

/-- An item of reply data that is a number. -/
def item (n : Nat) : BitVec 64 := BitVec.ofNat 64 n

/-- Yes is 1 and no is 0 (R173). -/
def boolItem (b : Bool) : BitVec 64 := if b then 1 else 0

/-- Absent is all ones (R173). -/
def optItem (o : Option Nat) : BitVec 64 :=
  match o with
  | some n => item n
  | none => BitVec.allOnes 64

/-- A list is given as its length followed by its members (R173). -/
def listItems {α : Type} (f : α → List (BitVec 64)) (l : List α) : List (BitVec 64) :=
  item l.length :: l.flatMap f

/-- The code of a fallback order (R173). -/
def fallbackCode : Fallback → Nat
  | .colderFirst => 0 | .hotterFirst => 1

/-- A stream descriptor's items, in the order of its table (R12). -/
def streamItems (d : Stream) : List (BitVec 64) :=
  [boolItem d.admitted, item d.group.val, boolItem d.track, optItem (d.pinned.map Fin.val),
   optItem (d.relocClass.map Fin.val), item d.current.val, item d.dwell, item d.rate, item d.count,
   item d.written.toNat]

/-- A group descriptor's items (R48). -/
def groupItems (d : Group) : List (BitVec 64) :=
  d.laneMap.items.map (fun e => optItem (e.map Fin.val)) ++ [item (fallbackCode d.fallback), item d.sealAge]

/-- The settings in the order of the table, then the five sweep items (R170). -/
def settingsItems (d : Settings) (w : Sweep) : List (BitVec 64) :=
  [item d.unitSize, item d.unitsPerBlock, item d.laneLimit, item d.period, item d.shift, item d.t1,
   item d.t2, item d.t3, item d.hysteresis, item d.dwell, item d.resultTimeout, item d.faultResidency,
   item d.refillMark, item d.share, item d.enables.toNat, item d.latchEnables.toNat,
   Config.sweepStateCode w.state, item w.position.val, Config.flagCode w.pending, item w.lost,
   item w.completed.toNat]

/-- A lane summary's items, in the order of the table of R168. -/
def laneItems (d : LaneSummary) : List (BitVec 64) :=
  [Config.laneStateCode d.state, optItem (d.owner.map Fin.val), Config.residencyItem d.residency,
   item d.fillCount, Config.flagCode d.sealPending, Config.sealAgeItem d.sealAge, item d.readyCount,
   item d.requeuedCount, item d.outstanding, optItem (d.current.map BitVec.toNat),
   item d.nextIndex]
    ++ listItems (fun b => [item b.toNat]) d.reserve
    ++ [Config.flagCode d.want, boolItem d.starved, item d.unitsIssued.toNat, item d.sectorsPadded.toNat,
        item d.blocksCompleted.toNat, item d.backoffs]

/-- A sector entry's items: source, tag, group, stream, LBA, handle (R169). -/
def sectorItems (x : Sector) : List (BitVec 64) :=
  (match x.tag with
    | .front t => [Config.entrySourceCode true, item t.val]
    | .reloc t => [Config.entrySourceCode false, item t.val])
    ++ [item x.group.val, item x.stream.val, item x.lba.toNat, item x.handle.toNat]

/-- An entry's items; pads are shown as pads (R169). -/
def entryItems : Entry → List (BitVec 64)
  | .pad => [Config.padItem]
  | .sector x => sectorItems x

/-- A unit slot's items (R169; grouped as log entry 15 says). -/
def unitItems : UnitSlot → List (BitVec 64)
  | .empty => listItems entryItems []
  | .filling xs => listItems sectorItems xs
  | .ready u q => listItems entryItems u.entries ++ [item u.attempt, Config.requeuedCode q]
  | .outstanding u =>
    listItems entryItems u.entries ++ [item u.attempt, Config.requeuedCode u.requeued,
      item u.block.toNat, item u.index, item u.timer]

/-- A tag record's items (R62, R64). -/
def tagItems (d : TagRecord) : List (BitVec 64) :=
  [boolItem d.inUse, item d.remaining, boolItem d.failed, item d.length, item d.stream.val]

/-- The items of a CONDITION-READ: per source its enable, latch enable, latch and, for the three level
sources, whether it is live; the summaries; the capture status; the time counter (R156). The summaries have
free codes, since R173 codes yes and no and not true and false; whether a source is live is read as yes or no
(DEDUCED). Both stand in log entry 15. -/
def conditionItems (d : ConditionReport) : List (BitVec 64) :=
  (List.range 11).flatMap (fun n =>
      [boolItem (d.enables.getLsbD n), boolItem (d.latchEnables.getLsbD n), Config.flagCode (d.latches.getLsbD n)]
        ++ (if n = 2 then [boolItem d.liveLaneFault] else if n = 4 then [boolItem d.liveReserve]
            else if n = 10 then [boolItem d.liveFlush] else []))
    ++ [Config.summaryCode d.warningSummary, Config.summaryCode d.errorSummary, Config.flagCode d.attn,
        item d.held, (match d.oldest with | some k => Config.captureKindCode k | none => BitVec.allOnes 64),
        Config.flagCode d.lost, item d.time.toNat]

/-- A capture's items (R159). -/
def captureItems (c : Capture) : List (BitVec 64) :=
  [Config.captureKindCode c.kind, item c.lane.val, item c.block.toNat, item c.index, item c.attempt,
   optItem (c.stream.map Fin.val), item c.stamp.toNat]

/-- The data of an ADMIN-REPLY, each item in 8 bytes (R173). The latches of a CONDITION-CLEAR reply are eleven
items and not one source set: the model's choice, as no table lays them out (log entry 15). -/
def replyItems : ReplyData → List (BitVec 64)
  | .none => []
  | .stream d => streamItems d
  | .group d => groupItems d
  | .settings d w => settingsItems d w
  | .lane d => laneItems d
  | .unit d => unitItems d
  | .tag d => tagItems d
  | .resetCause k n m w =>
    [Config.resetKindCode k, item n, Config.modeCode m, Config.flagCode w]
  | .conditions d => conditionItems d
  | .latches x => (List.range 11).map fun n => Config.flagCode (x.getLsbD n)
  | .capture c lost => listItems captureItems c.toList ++ [Config.flagCode lost]

/-- An outbound record of the F-link, as bytes (R173). -/
def layoutF : FRecord → List Byte
  | .done t failed => 0x81#8 :: leBytes 2 t.val ++ leBytes 1 (outcomeCode failed)
  | .backoff t r => 0x82#8 :: leBytes 2 t.val ++ leBytes 1 (backoffCode r)
  | .adminReply i st d =>
    let data := (replyItems d).flatMap fun x => leBytes 8 x.toNat
    0x83#8 :: leBytes 2 i.toNat ++ leBytes 1 (statusCode st) ++ leBytes 2 data.length ++ data
  | .flushDone => [0x84#8]

/-- An outbound record of the B-link, as bytes (R173). -/
def layoutB : BRecord → List Byte
  | .program l b i att u es =>
    0xC1#8 :: leBytes 1 l.val ++ leBytes 4 b.toNat ++ leBytes 2 i ++ leBytes 1 att ++ leBytes 1 u
      ++ es.flatMap layoutEntry
  | .want l n => 0xC2#8 :: leBytes 1 l.val ++ leBytes 1 n
  | .giveback l b r i =>
    0xC3#8 :: leBytes 1 l.val ++ leBytes 1 (givebackCode r) ++ leBytes 4 b.toNat ++ leBytes 2 (i.getD 0)
  | .relocDone t failed => 0xC4#8 :: leBytes 2 t.val ++ leBytes 1 (outcomeCode failed)
  | .relocBackoff t r => 0xC5#8 :: leBytes 2 t.val ++ leBytes 1 (backoffCode r)
  | .holdAck => [0xC6#8]
  | .holdClear => [0xC7#8]

end Sys2Proof.Machine
end

