-- ==== Sys2Proof/Safety.lean ====
section
/-! DEFINITION. The laws of the device: what the manual calls a law, as predicates over every state, and
the words that claims use: the records a link still has to send, the entries and blocks a lane holds. -/

namespace Sys2Proof.Machine

/-! ## Words of the claims -/

/-- The records of the F-link created and not yet sent to their end, oldest first (R166). -/
def State.outF (s : State) : List FRecord := s.fLink.sending.toList ++ s.fLink.list

/-- The records of the B-link that are being sent or wait in the control list, oldest first (R85). -/
def State.outB (s : State) : List BRecord := s.bLink.sending.toList ++ s.bLink.control

/-- Records created for the F-link in order. -/
def State.createAllF (s : State) (rs : List FRecord) : State := rs.foldl State.createF s

/-- Records created for the B-link in order. -/
def State.createAllB (s : State) (rs : List BRecord) : State := rs.foldl State.createB s

/-- The idle classifier of the working part takes this record of the front inbound queue next: nothing
is in hand, no assertion of HOLDUP_N stands to be taken, and the intake arbiter's choice is the front
queue (R49, R50, R149). -/
def State.FrontIsNext (s : State) (r : FrontRec) (rest : List FrontRec) : Prop :=
  s.inReset = false ∧ s.inHand = none ∧ ¬ (s.warning = true ∧ s.mode = .run)
    ∧ s.frontQueue = r :: rest ∧ (s.relocQueue = [] ∨ s.shareCount < s.settings.share)

/-- The same for a record of the relocation queue. -/
def State.RelocIsNext (s : State) (x : RelocateRec) (rest : List RelocateRec) : Prop :=
  s.inReset = false ∧ s.inHand = none ∧ ¬ (s.warning = true ∧ s.mode = .run)
    ∧ s.relocQueue = x :: rest ∧ (s.frontQueue = [] ∨ s.settings.share ≤ s.shareCount)

/-- The state once a front record has been taken: the share count saturates at 15 (R50), FHOLD compares
the free slots with its two marks (R164). -/
def State.frontTaken (s : State) (rest : List FrontRec) : State :=
  { s with
    frontQueue := rest
    shareCount := if s.shareCount < 15 then s.shareCount + 1 else 15
    fhold := if s.fhold then decide (256 - rest.length < 32) else decide (256 - rest.length ≤ 16) }

/-- The sector entries a lane holds: of its outstanding units, its ready units and its filling unit. -/
def Lane.sectors (ln : Lane) : List Sector :=
  (ln.outstanding.flatMap Issued.entries ++ ln.ready.flatMap SealedUnit.entries).filterMap
      (fun e => match e with | .sector x => some x | .pad => none) ++ ln.filling

/-- The sector entries that all lanes hold together. -/
def State.sectors (s : State) : List Sector := s.lanes.items.flatMap Lane.sectors

/-- The blocks that all lanes hold together. -/
def State.blocks (s : State) : List BlockAddr := s.lanes.items.flatMap Lane.blocks

/-- Nothing of the lane is due: no timer of it has run out (R75, R103, R132; log entry 12). -/
def Lane.Quiet (ln : Lane) : Prop :=
  ln.sealAge ≠ some 0 ∧ ln.residency ≠ .running 0 ∧ ∀ u ∈ ln.outstanding, u.timer ≠ 0

/-- The expiry of lane `l` that is taken first: its seal age, then the oldest unit whose result timer has run
out, then its residency (log entry 13). -/
def Lane.FirstDue (l : LaneId) (ln : Lane) (c : Instr) : Prop :=
  (ln.sealAge = some 0 ∧ c = .sealAgeExpiry l)
    ∨ (ln.sealAge ≠ some 0 ∧ ∃ (p : Fin 4) (xs ys : List Issued) (u : Issued),
        ln.outstanding = xs ++ u :: ys ∧ xs.length = p.val ∧ (∀ v ∈ xs, v.timer ≠ 0) ∧ u.timer = 0
          ∧ c = .resultTimeout l p)
    ∨ (ln.sealAge ≠ some 0 ∧ (∀ u ∈ ln.outstanding, u.timer ≠ 0) ∧ ln.residency = .running 0
        ∧ c = .faultResidencyExpiry l)

/-- The row of the table that executes an ADMIN's request: the read or the write of the table that the code
names (R173), TABLE_WRITE for a write of a read-only table and for an unknown code (log entry 6), and the
row of a request's own name. -/
def RowOf (req : AdminReq) (c : Instr) : Prop :=
  (∃ code i, req = .tableRead code i
      ∧ (code.toNat, c) ∈ [(1, Instr.streamTableRead), (2, .groupTableRead), (3, .settingsTableRead),
        (4, .laneTableRead), (5, .unitTableRead), (6, .frontTagTableRead), (7, .relocTagTableRead),
        (8, .resetCauseTableRead)])
    ∨ (∃ code i fields, req = .tableWrite code i fields
      ∧ (code.toNat, c) ∈ [(1, Instr.streamTableWrite), (2, .groupTableWrite), (3, .settingsTableWrite),
        (4, .tableWrite), (5, .tableWrite), (6, .tableWrite), (7, .tableWrite), (8, .tableWrite)])
    ∨ (∃ code i, (code = 0 ∨ 8 < code.toNat)
      ∧ (req = .tableRead code i ∨ ∃ fields, req = .tableWrite code i fields) ∧ c = .tableWrite)
    ∨ (∃ lane action, req = .laneRequest lane action
      ∧ (action, c) ∈ [(LaneAction.drain, Instr.drain), (.stop, .stop), (.clear, .clear)])
    ∨ (req = .conditionRead ∧ c = .conditionRead)
    ∨ (∃ sources, req = .conditionClear sources ∧ c = .conditionClear)
    ∨ (req = .captureTake ∧ c = .captureTake)
    ∨ (req = .softReset ∧ c = .softReset)

/-- What the port arbiter serves of the accesses that wait: the access of a record in hand, or the visit, which
waits while a sweep runs, and whose turn it is with no access waiting or after 8 of them (R9, R10; a record
whose mode has left RUN asks for none, log entry 7). -/
def State.PortServes (s : State) (c : Instr) : Prop :=
  ((s.sweep.state = .idle ∨ s.classifierRun < 8)
      ∧ ((∃ w, s.inHand = some (.write w) ∧ s.mode = .run ∧ c = .writeClassification)
        ∨ (∃ x, s.inHand = some (.relocate x) ∧ s.mode = .run ∧ c = .relocateClassification)
        ∨ ∃ a, s.inHand = some (.streamAdmin a) ∧ RowOf a.req c))
    ∨ (s.sweep.state = .running ∧ c = .visit
      ∧ (s.inHand = none ∨ 8 ≤ s.classifierRun ∧ (s.mode = .run ∨ ∃ a, s.inHand = some (.streamAdmin a))))

/-- One millisecond tick from `s` to `t`: the sample timer, the time counter and every running timer count it,
and nothing else changes (R17, R75, R103, R132, R158; log entry 12). -/
def State.TicksTo (s t : State) : Prop :=
  ∃ lanes, t = { s with
      sample := { s.sample with count := s.sample.count + 1 }, time := s.time + 1, lanes := lanes }
    ∧ ∀ l, lanes.get l = { s.lanes.get l with
        sealAge := (s.lanes.get l).sealAge.map fun n => n - 1
        residency := match (s.lanes.get l).residency with
          | .running n => .running (n - 1)
          | r => r
        outstanding := (s.lanes.get l).outstanding.map fun u => { u with timer := u.timer - 1 } }

/-- The stream-table port serves a classifier access now: no visit waits, or fewer than 8 accesses have been
served while one waited (R10). -/
def State.PortFree (s : State) : Prop := s.sweep.state = .idle ∨ s.classifierRun < 8

/-- One classifier access is served (R10). -/
def State.accessServed (s : State) : State :=
  { s with classifierRun := if s.sweep.state = .running then s.classifierRun + 1 else s.classifierRun }

/-- The entry carries the tag. -/
def Entry.carries (x : TagRef) : Entry → Bool
  | .sector y => y.tag == x
  | .pad => false

/-- The tags that the entries end, in the order in which they do: a tag with `left` entries to settle ends at
the position of that many of its entries (R136). -/
def endedTags (left : TagRef → Nat) (es : List Entry) : List TagRef :=
  (List.range es.length).filterMap fun k : Nat =>
    match es[k]? with
    | some (.sector y) =>
      if (es.take (k + 1)).countP (Entry.carries y.tag) = left y.tag then some y.tag else none
    | _ => none

/-- The bytes are `size` many, and each field, given by its offset, its width and its value, stands in them
with its least significant byte first (R173). -/
def Layout (bs : List Byte) (size : Nat) (fields : List (Nat × Nat × Nat)) : Prop :=
  bs.length = size ∧ ∀ f ∈ fields, leNat ((bs.drop f.1).take f.2.1) = f.2.2

/-- A value that may be absent: absent is all ones (R173). -/
def absentOr : Option Nat → BitVec 64
  | some n => BitVec.ofNat 64 n
  | none => BitVec.allOnes 64

/-- The rate moves toward the target by the gap divided by 2 to the power k, rounded up (R27). -/
def RateStep (k rate target rate' : Nat) : Prop :=
  ∃ q, (rate ≤ target ∧ target - rate ≤ q * 2 ^ k ∧ q * 2 ^ k < (target - rate) + 2 ^ k ∧ rate' = rate + q)
    ∨ (target ≤ rate ∧ rate - target ≤ q * 2 ^ k ∧ q * 2 ^ k < (rate - target) + 2 ^ k ∧ rate' + q = rate)

/-- Threshold Th[n] as an integer, n from 1 to 3. -/
def Settings.bound (st : Settings) (n : Nat) : Int :=
  if n = 1 then st.t1 else if n = 2 then st.t2 else st.t3

/-- The class evaluation of R29, on integers that neither wrap nor saturate. -/
def ClassStep (st : Settings) (c : HeatClass) (rate : Nat) (c' : HeatClass) (dwell' : Nat) : Prop :=
  if c.val < 3 ∧ st.bound (c.val + 1) + st.hysteresis ≤ (rate : Int) then c'.val = c.val + 1 ∧ dwell' = st.dwell
  else if 0 < c.val ∧ (rate : Int) < st.bound c.val - st.hysteresis then c'.val + 1 = c.val ∧ dwell' = st.dwell
  else c' = c ∧ dwell' = 0

/-- What a visit makes of a stream descriptor (R25 to R29). -/
def VisitLaw (st : Settings) (d d' : Stream) : Prop :=
  if d.track = false then d' = { d with count := 0 }
  else ∃ rate current dwell,
    d' = { d with count := 0, rate := rate, current := current, dwell := dwell }
      ∧ RateStep st.shift d.rate (d.count * 256) rate
      ∧ if 0 < d.dwell then current = d.current ∧ dwell + 1 = d.dwell
        else ClassStep st d.current rate current dwell

/-- A value in the range of a field of a stream descriptor (R13, R173). -/
def StreamValue (f : Nat) (v : BitVec 64) : Prop :=
  match f with
  | 0 | 2 => v.toNat ≤ 1
  | 1 => v.toNat < 128
  | 3 | 4 => v = BitVec.allOnes 64 ∨ v.toNat < 4
  | 5 => v.toNat < 4
  | 6 => v.toNat ≤ 15
  | 7 => True
  | 8 => v.toNat ≤ 65535
  | _ => False

/-- A value in the range of a field of a group descriptor (R39, R173). -/
def GroupValue (f : Nat) (v : BitVec 64) : Prop :=
  match f with
  | 0 | 1 | 2 | 3 => v = BitVec.allOnes 64 ∨ v.toNat < 48
  | 4 => v.toNat ≤ 1
  | 5 => v.toNat ≤ 1000
  | _ => False

/-- A value in the range of a setting (R170, R173). -/
def SettingValue (f : Nat) (v : BitVec 64) : Prop :=
  match f with
  | 0 => v.toNat = 16 ∨ v.toNat = 32 ∨ v.toNat = 48
  | 1 => 16 ≤ v.toNat ∧ v.toNat ≤ 2048
  | 2 => 1 ≤ v.toNat ∧ v.toNat ≤ 48
  | 3 => 1 ≤ v.toNat ∧ v.toNat ≤ 255
  | 4 => 1 ≤ v.toNat ∧ v.toNat ≤ 8
  | 5 | 6 | 7 => 1 ≤ v.toNat ∧ v.toNat ≤ 16776960
  | 8 => v.toNat ≤ 65535
  | 9 => v.toNat ≤ 15
  | 10 => 10 ≤ v.toNat ∧ v.toNat ≤ 2000
  | 11 => 1 ≤ v.toNat ∧ v.toNat ≤ 100
  | 12 => v.toNat ≤ 7
  | 13 => 1 ≤ v.toNat ∧ v.toNat ≤ 15
  | 14 | 15 => v.toNat < 2048
  | _ => False

/-- A lane map entry of the group may name the lane as it stands (R40). -/
def State.MayName (s : State) (g : GroupId) (l : LaneId) : Prop :=
  l.val < s.settings.laneLimit ∧ ((s.lanes.get l).state = .closed
    ∨ ((s.lanes.get l).owner = some g
        ∧ ((s.lanes.get l).state = .opening ∨ (s.lanes.get l).state = .opened)))

/-- The lanes that the list's selected lane map entries name, class 0 first. -/
def namedBy (fields : List (Byte × BitVec 64)) : List LaneId :=
  [0, 1, 2, 3].filterMap fun c =>
    match fields.find? fun p => p.1.toNat == c with
    | some (_, v) => if h : v.toNat < 48 then some ⟨v.toNat, h⟩ else none
    | none => none

/-! ## The laws -/

/-- R163: the front inbound queue holds at most 256 records, the relocation queue at most 64, and at most
2 captures are held. -/
def State.QueueLaw (s : State) : Prop :=
  s.frontQueue.length ≤ 256 ∧ s.relocQueue.length ≤ 64 ∧ s.captures.length ≤ 2

/-- R164: while FHOLD is high fewer than 32 slots are free, while it is low more than 16. -/
def State.FholdLaw (s : State) : Prop :=
  if s.fhold then 256 - s.frontQueue.length < 32 else 16 < 256 - s.frontQueue.length

/-- The counts stay where they saturate or are reset: the classifier run (R10), the share count (R50),
lost ticks (R20), soft resets (R150), the lanes' backoffs (R106). -/
def State.CountLaw (s : State) : Prop :=
  s.classifierRun ≤ 8 ∧ s.shareCount ≤ 15 ∧ s.sweep.lost ≤ 65535 ∧ s.softResets ≤ 65535
    ∧ ∀ l, (s.lanes.get l).backoffs ≤ 4294967295

/-- R170: every setting lies in its range, and the thresholds rise. -/
def Settings.Lawful (d : Settings) : Prop :=
  (d.unitSize = 16 ∨ d.unitSize = 32 ∨ d.unitSize = 48)
    ∧ (16 ≤ d.unitsPerBlock ∧ d.unitsPerBlock ≤ 2048) ∧ (1 ≤ d.laneLimit ∧ d.laneLimit ≤ 48)
    ∧ (1 ≤ d.period ∧ d.period ≤ 255) ∧ (1 ≤ d.shift ∧ d.shift ≤ 8)
    ∧ (1 ≤ d.t1 ∧ d.t1 < d.t2 ∧ d.t2 < d.t3 ∧ d.t3 ≤ 16776960)
    ∧ d.hysteresis ≤ 65535 ∧ d.dwell ≤ 15 ∧ (10 ≤ d.resultTimeout ∧ d.resultTimeout ≤ 2000)
    ∧ (1 ≤ d.faultResidency ∧ d.faultResidency ≤ 100) ∧ d.refillMark ≤ 7
    ∧ (1 ≤ d.share ∧ d.share ≤ 15)

/-- Every rate lies within 0 to 16,776,960 (R27), every interval count within 0 to 65,535 (R7), every dwell
within 0 to 15. -/
def State.HeatLaw (s : State) : Prop :=
  ∀ i, (s.streams.get i).rate ≤ 16776960 ∧ (s.streams.get i).count ≤ 65535
    ∧ (s.streams.get i).dwell ≤ 15

/-- R38 and R43: an entry of group g names lane l only while l is owned by g, is OPENING or OPEN, and
stands below the lane limit. -/
def State.LaneMapLaw (s : State) : Prop :=
  ∀ (g : GroupId) (c : HeatClass) (l : LaneId), (s.groups.get g).laneMap.get c = some l →
    (s.lanes.get l).owner = some g
      ∧ ((s.lanes.get l).state = .opening ∨ (s.lanes.get l).state = .opened)
      ∧ l.val < s.settings.laneLimit

/-- R73: the ready queue holds at most 8 units, the outstanding list at most 4, the two together at
most 8. -/
def Lane.ReadyLaw (ln : Lane) : Prop :=
  ln.ready.length ≤ 8 ∧ ln.outstanding.length ≤ 4 ∧ ln.ready.length + ln.outstanding.length ≤ 8

/-- R69 and R71: a unit's entries are exactly U, at least one of them a sector entry, the pads last. -/
def WholeUnit (unitSize : Nat) (es : List Entry) : Prop :=
  ∃ xs : List Sector, xs ≠ [] ∧ xs.length ≤ unitSize
    ∧ es = xs.map .sector ++ List.replicate (unitSize - xs.length) .pad

/-- R71 and R128: a filling unit holds at most U entries, every sealed unit exactly U, and every attempt
count lies within 1 to 3. -/
def Lane.UnitLaw (unitSize : Nat) (ln : Lane) : Prop :=
  ln.filling.length ≤ unitSize
    ∧ (∀ u ∈ ln.ready, WholeUnit unitSize u.entries ∧ 1 ≤ u.attempt ∧ u.attempt ≤ 3)
    ∧ ∀ u ∈ ln.outstanding, WholeUnit unitSize u.entries ∧ 1 ≤ u.attempt ∧ u.attempt ≤ 3

/-- What a lane may hold in each of its states. -/
def Lane.StateLaw (ln : Lane) : Prop :=
  match ln.state with
  | .closed =>
    ln.owner = none ∧ ln.filling = [] ∧ ln.ready = [] ∧ ln.outstanding = [] ∧ ln.current = none
      ∧ ln.reserve = [] ∧ ln.want = false ∧ ln.sealAge = none ∧ ln.sealPending = false
      ∧ ln.residency = .stopped
  | .opening =>
    ln.owner ≠ none ∧ ln.outstanding = [] ∧ ln.current = none ∧ ln.reserve = []
      ∧ ln.residency = .stopped
  | .opened => ln.owner ≠ none ∧ (ln.current = none → ln.reserve = []) ∧ ln.residency = .stopped
  | .draining =>
    ln.owner ≠ none ∧ (ln.current = none → ln.reserve = []) ∧ ln.residency = .stopped
      ∧ ln.sealAge = none ∧ ln.holdsWork = true
  | .fault =>
    ln.owner ≠ none ∧ ln.filling = [] ∧ ln.ready = [] ∧ ln.reserve = [] ∧ ln.sealAge = none
      ∧ ln.sealPending = false ∧ ln.residency ≠ .stopped ∧ (ln.outstanding = [] → ln.current = none)

/-- What waits in the filling unit: a full unit and a flagged one only while 4 units or more are ready (R74,
R77), a running seal-age timer only over a unit with entries that is neither full nor flagged (R75). -/
def Lane.WaitLaw (unitSize : Nat) (ln : Lane) : Prop :=
  (unitSize ≤ ln.filling.length → 4 ≤ ln.ready.length)
    ∧ (ln.sealPending = true → ln.filling ≠ [] ∧ 4 ≤ ln.ready.length)
    ∧ (ln.sealAge ≠ none → ln.filling ≠ [] ∧ ln.filling.length < unitSize ∧ ln.sealPending = false)

/-- The laws of the lanes (R69, R71, R74, R77, R89, R90, R92, R100, R102, R111, R128): each lane holds what
its state allows, its units are whole, and its filling unit waits only where it must. -/
def State.LaneLaw (s : State) : Prop :=
  ∀ l, (s.lanes.get l).StateLaw ∧ (s.lanes.get l).WaitLaw s.settings.unitSize
    ∧ (s.lanes.get l).UnitLaw s.settings.unitSize

/-- R89: every sector entry held by a lane records a group equal to that lane's owner. -/
def State.OwnerLaw (s : State) : Prop :=
  ∀ (l : LaneId), ∀ x ∈ (s.lanes.get l).sectors, (s.lanes.get l).owner = some x.group

/-- R109: across all reserve stacks and current blocks each address appears at most once, and no reserve
stack holds more than 8. -/
def State.BlockLaw (s : State) : Prop :=
  s.blocks.Nodup ∧ ∀ l, (s.lanes.get l).reserve.length ≤ 8

/-- R108 and R110: a lane's next unit index is below units-per-block, and is 0 while no block is current (log
entry 20). -/
def State.IndexLaw (s : State) : Prop :=
  ∀ l : LaneId, (s.lanes.get l).nextIndex < s.settings.unitsPerBlock
    ∧ ((s.lanes.get l).current = none → (s.lanes.get l).nextIndex = 0)

/-- R63: a tag is in use exactly when its remaining count is at least 1, and that count equals the number of
sector entries carrying the tag held by all lanes together; the tag of a record in hand that has passed
its tag check is free (R55). -/
def State.TagLaw (s : State) : Prop :=
  (∀ t, (s.frontTags.get t).remaining = s.sectors.countP (fun x => x.tag == .front t)
      ∧ ((s.frontTags.get t).inUse = true ↔ 1 ≤ (s.frontTags.get t).remaining))
    ∧ (∀ t, (s.relocTags.get t).remaining = s.sectors.countP (fun x => x.tag == .reloc t)
      ∧ ((s.relocTags.get t).inUse = true ↔ 1 ≤ (s.relocTags.get t).remaining))
    ∧ (∀ w, s.inHand = some (.write w) → 1 ≤ w.length ∧ (s.frontTags.get w.tag).inUse = false)
    ∧ (∀ x, s.inHand = some (.relocate x) →
        1 ≤ x.sectors.length ∧ (s.relocTags.get x.tag).inUse = false)
    ∧ (∀ w, .write w ∈ s.frontQueue → 1 ≤ w.length)
    ∧ ∀ x ∈ s.relocQueue, 1 ≤ x.sectors.length

/-- R145: while the intake mode is FLUSHED, no lane holds filling entries, ready units or outstanding
units. -/
def State.FlushedLaw (s : State) : Prop := s.mode = .flushed → ∀ l, (s.lanes.get l).holdsWork = false

/-- A lane meets the first four conditions of R82. -/
def Lane.Issuable (ln : Lane) : Prop :=
  ln.ready ≠ [] ∧ (ln.state = .opened ∨ ln.state = .draining) ∧ ln.current ≠ none
    ∧ ln.outstanding.length < 4

/-- R166 and R86: a transmitter is idle only while it has nothing to send: no record in its list, and for
the B-link, unless the port is held, no issuable lane. -/
def State.TransmitLaw (s : State) : Prop :=
  (s.fLink.sending = none → s.fLink.list = [])
    ∧ (s.bLink.sending = none →
        s.bLink.control = [] ∧ (s.hold = .free → ∀ l, ¬ (s.lanes.get l).Issuable))

/-- R154: while the part works, every level source that is live while both its enables are yes has its latch
set. -/
def State.LatchLaw (s : State) : Prop :=
  s.inReset = false → ∀ x : Source,
    ((x = .laneFault ∧ ∃ l, (s.lanes.get l).state = .fault)
      ∨ (x = .reserveEmpty ∧ ∃ l, (s.lanes.get l).state = .opening
          ∨ (((s.lanes.get l).state = .opened ∨ (s.lanes.get l).state = .draining)
              ∧ (s.lanes.get l).current = none ∧ (s.lanes.get l).reserve = []))
      ∨ (x = .powerFlush ∧ s.mode = .flushing)) →
    s.settings.enables.getLsbD (sourceNum x) = true →
    s.settings.latchEnables.getLsbD (sourceNum x) = true →
    s.latches.getLsbD (sourceNum x) = true

end Sys2Proof.Machine
end

