-- ==== Sys2Proof/WellFormed.lean ====
section
/-! DEFINITION. Which inbound records and which commands are well formed. -/

namespace Sys2Proof

/-- The rules of form of R162 that a record's own type does not already keep: a WRITE's length is 1
to 32, a RELOCATE's count 1 to 8, a field-select list has at most 27 fields. -/
def InRecord.wellFormed : InRecord → Bool
  | .write w => 1 ≤ w.length && w.length ≤ 32
  | .relocate r => 1 ≤ r.sectors.length && r.sectors.length ≤ 8
  | .admin a => match a.req with
    | .tableWrite _ _ l => l.length ≤ 27
    | _ => true
  | _ => true

/-- A MALFORMED_RECORD command is well formed when its bytes are no record of the link. The other
commands carry only operands that their types bound, or bytes that R162 lets be anything. -/
def Instr.wellFormed : Instr → Bool
  | .malformedRecord link bytes => (parseRecord link bytes).isNone
  | .powerOn | .lineReset | .resetEnd | .holdupAsserted | .holdupDeasserted | .sampleTick | .visit
  | .sealAgeExpiry _ | .resultTimeout _ _ | .faultResidencyExpiry _ | .writeArrival _
  | .adminArrival _ | .relocateArrival _ | .write | .writeClassification | .relocate
  | .relocateClassification | .streamTableRead | .streamTableWrite | .groupTableRead
  | .groupTableWrite | .settingsTableRead | .settingsTableWrite | .laneTableRead | .unitTableRead
  | .frontTagTableRead | .relocTagTableRead | .resetCauseTableRead | .tableWrite | .drain | .stop
  | .clear | .conditionRead | .conditionClear | .captureTake | .softReset | .resultOk _ _ _
  | .resultFail _ _ _ | .resultAborted _ _ _ | .grant _ _ | .holdOn | .holdOff | .bLinkSendEnd
  | .fLinkSendEnd | .warningTakenAfterSoftReset => true

end Sys2Proof
end

