-- ==== Sys2Proof/Certificates/Slice0/Obligations.lean ====
section
/-! DEFINITION. The statements for the provers: what the commands do, what each leaves alone, and the laws
that every step keeps. -/

open Sys2Proof Sys2Proof.Machine

/-! ## The machine's step -/

/-- A command at the front of the queue is what a step runs, on the queue's rest (log entry 1). -/
def Obligations.StepRunsFrontCommand : Prop :=
  ∀ (c : Instr) (rest : List Instr) (s : State),
    step { s with pending := c :: rest } = exec c { s with pending := rest }

/-- Every command answers a next state and leaves the queue of commands alone (log entries 1 and 3: a command
that is not due is spent; nothing faults and nothing is refused). -/
def Obligations.EveryCommandAnswers : Prop :=
  ∀ (c : Instr) (s : State), ∃ t, exec c s = .next t ∧ t.pending = s.pending

/-- On an empty queue a step takes the first step that is due, in one fixed order: the standing warning level,
the sample tick, the expiries of the lanes, the classifier's taking of a record or its refusal of one whose
mode has left RUN. With none of these due, a waiting access or visit ends before the next millisecond tick or
behind it, as a free value says, whatever that value is; and with nothing waiting the step is one tick (R10,
R20, R49; log entries 2, 7, 12, 13 and 25). -/
def Obligations.IdleTick : Prop :=
  ∀ s : State, s.pending = [] → s.inReset = false →
    (s.warning = true ∧ s.mode = .run → step s = exec .warningTakenAfterSoftReset s)
    ∧ (¬ (s.warning = true ∧ s.mode = .run) → s.sample.length ≤ s.sample.count →
        step s = exec .sampleTick s)
    ∧ (¬ (s.warning = true ∧ s.mode = .run) → s.sample.count < s.sample.length →
      (∀ l c, (s.lanes.get l).FirstDue l c → (∀ m < l, (s.lanes.get m).Quiet) → step s = exec c s)
      ∧ ((∀ l, (s.lanes.get l).Quiet) →
        (∀ w rest, s.FrontIsNext (.write w) rest → step s = exec .write s)
        ∧ (∀ a rest c, s.FrontIsNext (.admin a) rest → RowOf a.req c → step s = exec c s)
        ∧ (∀ x rest, s.RelocIsNext x rest → step s = exec .relocate s)
        ∧ (∀ w, s.inHand = some (.write w) → s.mode ≠ .run → step s = exec .writeClassification s)
        ∧ (∀ x, s.inHand = some (.relocate x) → s.mode ≠ .run → step s = exec .relocateClassification s)
        ∧ (∀ c d, s.PortServes c → (s.inHand = none → s.frontQueue = [] ∧ s.relocQueue = []) →
            d = { s with draws := s.draws + 1 } →
            if Config.accessEndsBeforeTick s.draws = true then step s = exec c d
            else ∃ t, step s = .next t ∧ d.TicksTo t)
        ∧ (s.inHand = none → s.frontQueue = [] → s.relocQueue = [] → s.sweep.state = .idle →
          ∃ t, step s = .next t ∧ s.TicksTo t)))

/-! ## Resets and the hold-up line -/

/-- R147: held in reset, the part takes nothing and sends nothing: only the level of the input HOLDUP_N can
change, ATTN_N is deasserted and FLUSHED is low (log entry 18). -/
def Obligations.HeldInReset : Prop :=
  ∀ s : State, s.inReset = true →
    (∀ c : Instr, c ≠ .powerOn → c ≠ .lineReset → c ≠ .resetEnd → c ≠ .holdupAsserted →
        c ≠ .holdupDeasserted → exec c s = .next s)
      ∧ exec .holdupAsserted s = .next { s with holdupPin := true }
      ∧ exec .holdupDeasserted s = .next { s with holdupPin := false }
      ∧ (s.pending = [] → step s = .next s)
      ∧ s.attn = false ∧ s.flushedLine = false

/-- Power-on and line reset leave every piece of state at its reset value, the part held in reset; they
differ in the reset-cause record alone (R2, R18, R36, R62, R85, R88, R147, R150, R152, R170). The model's own
queue and counter are kept (log entries 1 and 25). -/
def Obligations.PowerOnAndLineReset : Prop :=
  ∀ s : State, ∃ t, exec .powerOn s = .next t
    ∧ exec .lineReset s = .next { t with lastReset := .line, softResets := s.softResets }
    ∧ t.lastReset = .powerOn ∧ t.softResets = 0 ∧ t.inReset = true ∧ t.holdupPin = s.holdupPin
    ∧ t.pending = s.pending ∧ t.draws = s.draws
    ∧ (∀ i, t.streams.get i = ⟨false, 0, true, none, none, 0, 0, 0, 0, 0⟩)
    ∧ (∀ g, (∀ c, (t.groups.get g).laneMap.get c = none)
        ∧ (t.groups.get g).fallback = .colderFirst ∧ (t.groups.get g).sealAge = 20)
    ∧ (∀ i, t.frontTags.get i = ⟨false, 0, false, 0, 0⟩)
    ∧ (∀ i, t.relocTags.get i = ⟨false, 0, false, 0, 0⟩)
    ∧ (∀ l, t.lanes.get l =
      ⟨.closed, none, .stopped, [], none, false, [], [], [], none, 0, [], false, 0, 0, 0, 0⟩)
    ∧ t.settings = ⟨48, 768, 48, 10, 3, 2560, 12800, 64000, 512, 4, 500, 10, 2, 4, 0x7FF, 0x7FF⟩
    ∧ t.sample = ⟨0, 10⟩ ∧ t.sweep = ⟨.idle, 0, false, 0, 0⟩ ∧ t.classifierRun = 0 ∧ t.shareCount = 0
    ∧ t.inHand = none ∧ t.frontQueue = [] ∧ t.relocQueue = [] ∧ t.fhold = false
    ∧ t.fLink = ⟨none, []⟩ ∧ t.bLink = ⟨none, [], 47⟩ ∧ t.hold = .free ∧ t.mode = .run
    ∧ t.latches = 0 ∧ t.captures = [] ∧ t.captureLost = false ∧ t.time = 0

/-- The end of a reset, from every state that is held in reset with its lanes and links as the two hardware
resets leave them: the part takes the level of HOLDUP_N; deasserted, it is in RUN and nothing else changes;
asserted, a flush begins and completes in the same step, with FLUSH-DONE the first record of the F-link, the
mode FLUSHED, and POWER-FLUSH latched if both its enables are yes (R147, R143, R145, R154). -/
def Obligations.ResetEnd : Prop :=
  ∀ s : State, s.inReset = true → s.mode = .run → (∀ l, s.lanes.get l = Lane.reset) →
    s.fLink = ⟨none, []⟩ → s.bLink.sending = none → s.bLink.control = [] →
    (s.holdupPin = false → exec .resetEnd s = .next { s with inReset := false, warning := false })
      ∧ (s.holdupPin = true → exec .resetEnd s = .next { s with
          inReset := false, warning := true, mode := .flushed, fLink := ⟨some .flushDone, []⟩
          latches := s.latches
            ||| (sourceBit .powerFlush &&& s.settings.enables &&& s.settings.latchEnables) })

/-- The levels of HOLDUP_N, by the mode they find. In RUN an assertion, and in RUN a level that a SOFT-RESET
left asserted, begins the flush: every lane acts on its filling unit and stops its seal-age timer,
POWER-FLUSH is latched, and a part that holds no work completes the flush in the same step (R143, R145,
R146, R149). -/
def Obligations.HoldupLine : Prop :=
  ∀ s : State, s.inReset = false →
    (∀ (c : Instr) (pin : Bool),
      (c = .holdupAsserted ∧ pin = true ∨ c = .warningTakenAfterSoftReset ∧ s.warning = true ∧ pin = s.holdupPin) →
      s.mode = .run → ∃ lanes,
        (∀ l, lanes.get l =
          { (if (s.lanes.get l).filling = [] then s.lanes.get l
             else if (s.lanes.get l).ready.length < 4 then (s.lanes.get l).sealFilling s.settings.unitSize
             else if (s.lanes.get l).filling.length < s.settings.unitSize then
               { s.lanes.get l with sealPending := true }
             else s.lanes.get l) with sealAge := none })
        ∧ ∃ u : State, u = State.latchLevels { s with
              holdupPin := pin, warning := true, mode := .flushing, lanes := lanes }
          ∧ ((∃ l, (s.lanes.get l).holdsWork = true) →
              exec c s = .next (transmitterChoice u).latchLevels)
          ∧ ((∀ l, (s.lanes.get l).holdsWork = false) →
              exec c s = .next
                (State.latchLevels (transmitterChoice { u.createF .flushDone with mode := .flushed }))))
      ∧ (s.mode ≠ .run →
          exec .holdupAsserted s = .next (State.latchLevels { s with holdupPin := true, warning := true }))
      ∧ exec .holdupDeasserted s = .next (State.latchLevels { s with
          holdupPin := false, warning := false, mode := if s.mode = .flushed then .run else s.mode })

/-- SOFT-RESET, said whole: the handbacks of lane 0 to lane 47 behind the records already waiting, what is
cleared, what is kept, the last lane served 47, and the reply behind the handbacks (R148, R85, R107, R150). -/
def Obligations.SoftReset : Prop :=
  ∀ (s : State) (id : BitVec 16) (rest : List FrontRec),
    s.FrontIsNext (.admin ⟨id, .softReset⟩) rest → ∃ (groups : Table Group 128) (h : State),
      (∀ g, groups.get g = { s.groups.get g with laneMap := Table.replicate 4 none })
        ∧ h = (s.frontTaken rest).createAllB ((List.finRange 48).flatMap fun l =>
            ((s.lanes.get l).current.toList ++ (s.lanes.get l).reserve).map
              fun b => .giveback (LaneId.field l) b .reset none)
        ∧ exec .softReset s = .next (State.latchLevels (State.createF
            { h with
              bLink := { h.bLink with lastServed := 47 }
              lanes := Table.replicate 48 Lane.reset
              groups := groups
              frontTags := Table.replicate 4096 TagRecord.reset
              relocTags := Table.replicate 512 TagRecord.reset
              relocQueue := [], shareCount := 0, latches := 0, captures := [], captureLost := false
              hold := .free, sweep := ⟨.idle, 0, false, 0, 0⟩, classifierRun := 0, mode := .run
              lastReset := .soft
              softResets := if s.softResets < 65535 then s.softResets + 1 else 65535 }
            (.adminReply id .ok .none)))

/-! ## Heat -/

/-- A due sample tick restarts the timer with the period now stored and starts a sweep, sets the pending
tick, or is lost (R17, R19, R20). -/
def Obligations.SampleTick : Prop :=
  ∀ s : State, s.inReset = false → s.sample.length ≤ s.sample.count →
    ∃ r : State, r = { s with sample := ⟨0, s.settings.period⟩ }
      ∧ (s.sweep.state = .idle → exec .sampleTick s =
          .next (State.latchLevels { r with sweep := { s.sweep with state := .running, position := 0 } }))
      ∧ (s.sweep.state = .running → s.sweep.pending = false → exec .sampleTick s =
          .next (State.latchLevels { r with sweep := { s.sweep with pending := true } }))
      ∧ (s.sweep.state = .running → s.sweep.pending = true → exec .sampleTick s =
          .next (State.latchLevels (State.raise { r with sweep := { s.sweep with
            lost := if s.sweep.lost < 65535 then s.sweep.lost + 1 else 65535 } } .tickLost)))

/-- A visit that the port serves: the stream's rate, count, dwell and class by R25 to R29, the classifier run
0, and the sweep's next position or its end (R10, R21, R23, R25, R26, R28, R29). -/
def Obligations.Visit : Prop :=
  ∀ s : State, s.inReset = false → s.sweep.state = .running → s.settings.Lawful →
    (s.inHand = none ∨ 8 ≤ s.classifierRun) →
    ∃ d', VisitLaw s.settings (s.streams.get s.sweep.position) d'
      ∧ exec .visit s = .next (State.latchLevels { s with
          streams := s.streams.set s.sweep.position d'
          classifierRun := 0
          sweep :=
            if s.sweep.position.val < 1023 then { s.sweep with position := s.sweep.position + 1 }
            else { state := if s.sweep.pending then .running else .idle, position := 0, pending := false,
                   lost := s.sweep.lost, completed := s.sweep.completed + 1 } })

/-- R27: each visit's update leaves the rate of a tracked stream between its value before and the target, and
moves it by at least 1 unless it is already there. -/
def Obligations.RateStaysBetween : Prop :=
  ∀ (st : Settings) (d : Stream), d.track = true →
    min d.rate (d.count * 256) ≤ (d.visit st).rate ∧ (d.visit st).rate ≤ max d.rate (d.count * 256)
      ∧ (d.rate ≠ d.count * 256 → (d.visit st).rate ≠ d.rate)

/-- R30: a visit changes a stream's current class by at most one step and never while its dwell was above 0;
no other command changes a class but a STREAM write, and the two hardware resets, which set it to 0. -/
def Obligations.ClassMovesOneStep : Prop :=
  ∀ (c : Instr) (s t : State) (i : StreamId), exec c s = .next t →
    (t.streams.get i).current = (s.streams.get i).current
      ∨ (c = .visit ∧ i = s.sweep.position ∧ (s.streams.get i).dwell = 0
          ∧ ((t.streams.get i).current.val = (s.streams.get i).current.val + 1
            ∨ (t.streams.get i).current.val + 1 = (s.streams.get i).current.val))
      ∨ c = .streamTableWrite
      ∨ ((c = .powerOn ∨ c = .lineReset) ∧ (t.streams.get i).current = 0)

/-- R10: with an access and a visit both waiting, the access is served while the classifier run is below 8 and
the run rises by 1; at 8 the visit is served and the run becomes 0; the one not served waits: its command is
spent (log entry 3). A STREAM request that is taken at the visit's turn is left in hand (log entry 5). -/
def Obligations.PortArbiter : Prop :=
  ∀ s : State, s.inReset = false → s.sweep.state = .running →
    (∀ c : Instr,
      (s.mode = .run ∧ (∃ w, s.inHand = some (.write w)) ∧ c = .writeClassification
        ∨ s.mode = .run ∧ (∃ x, s.inHand = some (.relocate x)) ∧ c = .relocateClassification
        ∨ (∃ id i, s.inHand = some (.streamAdmin ⟨id, .tableRead 1 i⟩) ∧ i.toNat < 1024)
            ∧ c = .streamTableRead
        ∨ (∃ id i fields, s.inHand = some (.streamAdmin ⟨id, .tableWrite 1 i fields⟩) ∧ i.toNat < 1024)
            ∧ c = .streamTableWrite) →
      (s.classifierRun < 8 → exec .visit s = .next s
          ∧ ∃ t, exec c s = .next t ∧ t.classifierRun = s.classifierRun + 1 ∧ t.inHand = none
            ∧ t.sweep = s.sweep)
        ∧ (8 ≤ s.classifierRun → exec c s = .next s
          ∧ ∃ t, exec .visit s = .next t ∧ t.classifierRun = 0 ∧ t.inHand = s.inHand))
    ∧ ∀ (c : Instr) (id i : BitVec 16) (req : AdminReq) (rest : List FrontRec), 8 ≤ s.classifierRun →
      (req = .tableRead 1 i ∧ c = .streamTableRead
        ∨ (∃ fields, req = .tableWrite 1 i fields) ∧ c = .streamTableWrite) →
      i.toNat < 1024 → s.FrontIsNext (.admin ⟨id, req⟩) rest →
      exec c s = .next (State.latchLevels { s.frontTaken rest with inHand := some (.streamAdmin ⟨id, req⟩) })

/-! ## The tables -/

/-- A STREAM read returns the whole descriptor in the one access that serves it, changes nothing else, and
waits in hand while the port serves the sweep; an index above 1023 takes no access (R9, R10, R12; taking and
serving in one command is log entry 5's reading). -/
def Obligations.StreamRead : Prop :=
  ∀ (s : State) (id index : BitVec 16),
    (∀ rest, s.FrontIsNext (.admin ⟨id, .tableRead 1 index⟩) rest →
      (∀ i : StreamId, i.val = index.toNat → s.PortFree →
        exec .streamTableRead s = .next (State.latchLevels ((s.frontTaken rest).accessServed.createF
          (.adminReply id .ok (.stream (s.streams.get i))))))
        ∧ (index.toNat < 1024 → ¬ s.PortFree →
          exec .streamTableRead s = .next (State.latchLevels
            { s.frontTaken rest with inHand := some (.streamAdmin ⟨id, .tableRead 1 index⟩) }))
        ∧ (1024 ≤ index.toNat →
          exec .streamTableRead s = .next (State.latchLevels ((s.frontTaken rest).createF
            (.adminReply id .badIndex .none)))))
      ∧ (s.inReset = false → s.inHand = some (.streamAdmin ⟨id, .tableRead 1 index⟩) →
        ∀ i : StreamId, i.val = index.toNat → s.PortFree →
          exec .streamTableRead s = .next (State.latchLevels (State.createF
            (State.accessServed { s with inHand := none })
            (.adminReply id .ok (.stream (s.streams.get i))))))

/-- An accepted STREAM write stores every selected field, reads back as written, the rate clamped, and leaves
the others; a selected class or pin sets the dwell to D unless the dwell is selected (R13, R14;
taking and serving in one command is log entry 5's reading). -/
def Obligations.StreamWriteStores : Prop :=
  ∀ (s : State) (id index : BitVec 16) (fields : List (Byte × BitVec 64)) (i : StreamId) (base : State),
    (∃ rest, s.FrontIsNext (.admin ⟨id, .tableWrite 1 index fields⟩) rest ∧ base = s.frontTaken rest)
      ∨ (s.inReset = false ∧ s.inHand = some (.streamAdmin ⟨id, .tableWrite 1 index fields⟩)
          ∧ base = { s with inHand := none }) →
    s.PortFree → i.val = index.toNat → (fields.map Prod.fst).Nodup →
    (∀ p ∈ fields, StreamValue p.1.toNat p.2) →
    ∃ d', exec .streamTableWrite s = .next (State.latchLevels (State.createF
        { base.accessServed with streams := s.streams.set i d' } (.adminReply id .ok .none)))
      ∧ (∀ p ∈ fields, (streamItems d')[p.1.toNat]? =
          some (if p.1.toNat = 7 then BitVec.ofNat 64 (min p.2.toNat 16776960) else p.2))
      ∧ (∀ n, n ≠ 6 → (∀ p ∈ fields, p.1.toNat ≠ n) →
          (streamItems d')[n]? = (streamItems (s.streams.get i))[n]?)
      ∧ ((∀ p ∈ fields, p.1.toNat ≠ 6) → d'.dwell =
          if ∃ p ∈ fields, p.1.toNat = 3 ∨ p.1.toNat = 5 then s.settings.dwell else (s.streams.get i).dwell)

/-- An accepted GROUP write stores every selected field, claims every CLOSED lane it names, once and in
ascending order, each with a WANT for 8 created before the reply, and leaves every other lane (R39, R41,
R42, R91). -/
def Obligations.GroupWriteClaims : Prop :=
  ∀ (s : State) (id index : BitVec 16) (fields : List (Byte × BitVec 64)) (g : GroupId) (rest : List FrontRec),
    s.FrontIsNext (.admin ⟨id, .tableWrite 2 index fields⟩) rest → g.val = index.toNat →
    (∀ l, (s.lanes.get l).StateLaw) → (fields.map Prod.fst).Nodup →
    (∀ p ∈ fields, GroupValue p.1.toNat p.2) → (∀ l ∈ namedBy fields, s.MayName g l) →
    ∃ d' lanes, exec .groupTableWrite s = .next (State.latchLevels (transmitterChoice (State.createF
        (State.createAllB { s.frontTaken rest with groups := s.groups.set g d', lanes := lanes }
          (((List.finRange 48).filter fun l =>
              decide (l ∈ namedBy fields) && (s.lanes.get l).state == .closed).map fun l => .want l 8))
        (.adminReply id .ok .none))))
      ∧ (∀ p ∈ fields, (groupItems d')[p.1.toNat]? = some p.2)
      ∧ (∀ n, (∀ p ∈ fields, p.1.toNat ≠ n) → (groupItems d')[n]? = (groupItems (s.groups.get g))[n]?)
      ∧ ∀ l, lanes.get l =
          if l ∈ namedBy fields ∧ (s.lanes.get l).state = .closed then
            { s.lanes.get l with state := .opening, owner := some g, want := true }
          else s.lanes.get l

/-- A SETTINGS write whose values are in range makes the last three checks of R171 on the settings as they
would stand, in order, and stores every selected setting or none; a stored one reads back as written (R34,
R43, R171). An empty list passes and stores nothing (log entry 24). -/
def Obligations.SettingsWriteStores : Prop :=
  ∀ (s : State) (id : BitVec 16) (fields : List (Byte × BitVec 64)) (rest : List FrontRec),
    s.FrontIsNext (.admin ⟨id, .tableWrite 3 0 fields⟩) rest → s.settings.Lawful →
    (fields.map Prod.fst).Nodup → (∀ p ∈ fields, SettingValue p.1.toNat p.2) →
    ∃ d', (∀ p ∈ fields, (settingsItems d' s.sweep)[p.1.toNat]? = some p.2)
      ∧ (∀ n, (∀ p ∈ fields, p.1.toNat ≠ n) →
          (settingsItems d' s.sweep)[n]? = (settingsItems s.settings s.sweep)[n]?)
      ∧ (¬ (d'.t1 < d'.t2 ∧ d'.t2 < d'.t3) → exec .settingsTableWrite s =
          .next (State.latchLevels ((s.frontTaken rest).createF (.adminReply id .badValue .none))))
      ∧ (d'.t1 < d'.t2 ∧ d'.t2 < d'.t3 →
          ((d'.unitSize ≠ s.settings.unitSize ∨ d'.unitsPerBlock ≠ s.settings.unitsPerBlock)
              ∧ (∃ l, (s.lanes.get l).state ≠ .closed)
            ∨ d'.laneLimit < s.settings.laneLimit
              ∧ ∃ l : LaneId, d'.laneLimit ≤ l.val ∧ (s.lanes.get l).state ≠ .closed) →
          exec .settingsTableWrite s =
            .next (State.latchLevels ((s.frontTaken rest).createF (.adminReply id .state .none))))
      ∧ (d'.t1 < d'.t2 ∧ d'.t2 < d'.t3 →
          ((d'.unitSize = s.settings.unitSize ∧ d'.unitsPerBlock = s.settings.unitsPerBlock)
            ∨ ∀ l, (s.lanes.get l).state = .closed) →
          (s.settings.laneLimit ≤ d'.laneLimit
            ∨ ∀ l : LaneId, d'.laneLimit ≤ l.val → (s.lanes.get l).state = .closed) →
          exec .settingsTableWrite s = .next (State.latchLevels (State.createF
            { s.frontTaken rest with settings := d' } (.adminReply id .ok .none))))

/-- A refused STREAM, GROUP or SETTINGS write stores nothing and answers the status of the first check that
fails; a STREAM write from the head of the queue, taken and served in one command, or from the hand, where
it waited for the port (R13, R39, R40, R171; log entry 5). -/
def Obligations.RefusedWritesStoreNothing : Prop :=
  ∀ (s : State) (id index : BitVec 16) (fields : List (Byte × BitVec 64)) (rest : List FrontRec),
    (s.FrontIsNext (.admin ⟨id, .tableWrite 1 index fields⟩) rest → 1024 ≤ index.toNat →
        exec .streamTableWrite s =
          .next (State.latchLevels ((s.frontTaken rest).createF (.adminReply id .badIndex .none))))
      ∧ (∀ base : State,
        (s.FrontIsNext (.admin ⟨id, .tableWrite 1 index fields⟩) rest ∧ base = s.frontTaken rest
          ∨ s.inReset = false ∧ s.inHand = some (.streamAdmin ⟨id, .tableWrite 1 index fields⟩)
            ∧ base = { s with inHand := none }) →
        index.toNat < 1024 → s.PortFree →
        ((∃ p ∈ fields, p.1 = 9) → exec .streamTableWrite s =
            .next (State.latchLevels (base.accessServed.createF (.adminReply id .readOnly .none))))
          ∧ ((∀ p ∈ fields, p.1 ≠ 9) →
            (¬ (fields.map Prod.fst).Nodup ∨ ∃ p ∈ fields, ¬ StreamValue p.1.toNat p.2) →
            exec .streamTableWrite s =
              .next (State.latchLevels (base.accessServed.createF (.adminReply id .badValue .none)))))
      ∧ (s.FrontIsNext (.admin ⟨id, .tableWrite 2 index fields⟩) rest →
        (128 ≤ index.toNat → exec .groupTableWrite s =
            .next (State.latchLevels ((s.frontTaken rest).createF (.adminReply id .badIndex .none))))
          ∧ (index.toNat < 128 →
            (¬ (fields.map Prod.fst).Nodup ∨ ∃ p ∈ fields, ¬ GroupValue p.1.toNat p.2) →
            exec .groupTableWrite s = .next (State.latchLevels (transmitterChoice
              ((s.frontTaken rest).createF (.adminReply id .badValue .none)))))
          ∧ (∀ (g : GroupId) (before after : List LaneId) (l : LaneId), g.val = index.toNat →
            (fields.map Prod.fst).Nodup → (∀ p ∈ fields, GroupValue p.1.toNat p.2) →
            namedBy fields = before ++ l :: after → (∀ m ∈ before, s.MayName g m) → ¬ s.MayName g l →
            exec .groupTableWrite s = .next (State.latchLevels (transmitterChoice
              ((s.frontTaken rest).createF (.adminReply id
                (if s.settings.laneLimit ≤ l.val then .badValue
                 else if (s.lanes.get l).owner ≠ some g then .conflict else .state) .none))))))
      ∧ (s.FrontIsNext (.admin ⟨id, .tableWrite 3 index fields⟩) rest →
        (index ≠ 0 → exec .settingsTableWrite s =
            .next (State.latchLevels ((s.frontTaken rest).createF (.adminReply id .badIndex .none))))
          ∧ (index = 0 → (∃ p ∈ fields, 16 ≤ p.1.toNat ∧ p.1.toNat ≤ 20) → exec .settingsTableWrite s =
            .next (State.latchLevels ((s.frontTaken rest).createF (.adminReply id .readOnly .none))))
          ∧ (index = 0 → (∀ p ∈ fields, ¬ (16 ≤ p.1.toNat ∧ p.1.toNat ≤ 20)) →
            (¬ (fields.map Prod.fst).Nodup ∨ ∃ p ∈ fields, ¬ SettingValue p.1.toNat p.2) →
            exec .settingsTableWrite s =
              .next (State.latchLevels ((s.frontTaken rest).createF (.adminReply id .badValue .none)))))

/-- The reads of GROUP, SETTINGS, FRONT-TAG, RELOC-TAG and RESET-CAUSE: the record as it stands for an index in
range, BAD-INDEX for another, and nothing else changes (R48, R64, R150, R167, R170). -/
def Obligations.TableReads : Prop :=
  ∀ (s : State) (id index : BitVec 16) (rest : List FrontRec) (code : Byte) (c : Instr) (size : Nat),
    (code, c, size) ∈ [((2 : Byte), Instr.groupTableRead, 128), (3, .settingsTableRead, 1),
      (6, .frontTagTableRead, 4096), (7, .relocTagTableRead, 512), (8, .resetCauseTableRead, 1)] →
    s.FrontIsNext (.admin ⟨id, .tableRead code index⟩) rest →
    (size ≤ index.toNat → exec c s =
        .next (State.latchLevels ((s.frontTaken rest).createF (.adminReply id .badIndex .none))))
      ∧ (index.toNat < size → ∃ data, exec c s =
          .next (State.latchLevels ((s.frontTaken rest).createF (.adminReply id .ok data)))
        ∧ (code = 2 → ∀ g : GroupId, g.val = index.toNat → data = .group (s.groups.get g))
        ∧ (code = 3 → data = .settings s.settings s.sweep)
        ∧ (code = 6 → ∀ t : FrontTag, t.val = index.toNat → data = .tag (s.frontTags.get t))
        ∧ (code = 7 → ∀ t : RelocTag, t.val = index.toNat → data = .tag (s.relocTags.get t))
        ∧ (code = 8 → data = .resetCause s.lastReset s.softResets s.mode s.warning))

/-- The reads of LANE and UNIT: a lane's summary, and one of its thirteen slots, the filling unit, the ready
queue head first, the outstanding list oldest first (R121, R167, R168, R169). -/
def Obligations.LaneAndUnitReads : Prop :=
  ∀ (s : State) (id index : BitVec 16) (rest : List FrontRec),
    (s.FrontIsNext (.admin ⟨id, .tableRead 4 index⟩) rest →
      (48 ≤ index.toNat → exec .laneTableRead s =
          .next (State.latchLevels ((s.frontTaken rest).createF (.adminReply id .badIndex .none))))
        ∧ ∀ l : LaneId, l.val = index.toNat → exec .laneTableRead s =
          .next (State.latchLevels ((s.frontTaken rest).createF (.adminReply id .ok (.lane
            { state := (s.lanes.get l).state, owner := (s.lanes.get l).owner
              residency := (s.lanes.get l).residency, fillCount := (s.lanes.get l).filling.length
              sealPending := (s.lanes.get l).sealPending, sealAge := (s.lanes.get l).sealAge
              readyCount := (s.lanes.get l).ready.length
              requeuedCount := (s.lanes.get l).requeued.length
              outstanding := (s.lanes.get l).outstanding.length, current := (s.lanes.get l).current
              nextIndex := (s.lanes.get l).nextIndex
              reserve := (s.lanes.get l).reserve, want := (s.lanes.get l).want
              starved := decide (((s.lanes.get l).state = .opened ∨ (s.lanes.get l).state = .draining)
                ∧ (s.lanes.get l).current = none ∧ (s.lanes.get l).reserve = [])
              unitsIssued := (s.lanes.get l).unitsIssued, sectorsPadded := (s.lanes.get l).sectorsPadded
              blocksCompleted := (s.lanes.get l).blocksCompleted
              backoffs := (s.lanes.get l).backoffs })))))
      ∧ (s.FrontIsNext (.admin ⟨id, .tableRead 5 index⟩) rest →
        (624 ≤ index.toNat → exec .unitTableRead s =
            .next (State.latchLevels ((s.frontTaken rest).createF (.adminReply id .badIndex .none))))
          ∧ ∀ (l : LaneId) (slot : Nat), slot < 13 → index.toNat = l.val * 13 + slot →
            ∃ data, exec .unitTableRead s =
              .next (State.latchLevels ((s.frontTaken rest).createF (.adminReply id .ok (.unit data))))
            ∧ (slot = 0 → data = .filling (s.lanes.get l).filling)
            ∧ (1 ≤ slot → slot ≤ 8 → data =
                match (s.lanes.get l).requeued[slot - 1]?,
                    (s.lanes.get l).fresh[slot - 1 - (s.lanes.get l).requeued.length]? with
                | some u, _ => .ready u true
                | none, some u => .ready u false
                | none, none => .empty)
            ∧ (9 ≤ slot → data =
                match (s.lanes.get l).outstanding[slot - 9]? with
                | some u => .outstanding u
                | none => .empty))

/-- TABLE_WRITE: an unknown table is answered BAD-TABLE, a read-only table BAD-INDEX or READ-ONLY whatever the
list, and nothing else changes; a read of an unknown table is answered the same way (R65, R64, R150, R167;
log entry 6). -/
def Obligations.TableWriteRefused : Prop :=
  ∀ (s : State) (id index : BitVec 16) (code : Byte) (rest : List FrontRec) (req : AdminReq)
    (fields : List (Byte × BitVec 64)),
    s.FrontIsNext (.admin ⟨id, req⟩) rest →
    ((code = 0 ∨ 8 < code.toNat) → (req = .tableWrite code index fields ∨ req = .tableRead code index) →
        exec .tableWrite s =
          .next (State.latchLevels ((s.frontTaken rest).createF (.adminReply id .badTable .none))))
      ∧ ∀ size, (code.toNat, size) ∈ [(4, 48), (5, 624), (6, 4096), (7, 512), (8, 1)] →
        req = .tableWrite code index fields → exec .tableWrite s =
          .next (State.latchLevels ((s.frontTaken rest).createF
            (.adminReply id (if index.toNat < size then .readOnly else .badIndex) .none)))

/-! ## Intake -/

/-- Taking a WRITE or a RELOCATE: the arbiter's choice, the share count and FHOLD, the intake-mode check and
the tag check, with no access of the port; the command of the queue not chosen is spent (R50, R53, R57, R58,
R164; log entry 3). -/
def Obligations.IntakeChecks : Prop :=
  ∀ s : State,
    (∀ w rest, s.FrontIsNext (.write w) rest →
      (s.mode ≠ .run → exec .write s = .next (State.latchLevels (State.raise
          ((s.frontTaken rest).createF (.backoff w.tag .power)) .backoff)))
        ∧ (s.mode = .run → (s.frontTags.get w.tag).inUse = true →
          exec .write s = .next (State.latchLevels (State.raise
            ((s.frontTaken rest).createF (.backoff w.tag .tagInUse)) .backoff)))
        ∧ (s.mode = .run → (s.frontTags.get w.tag).inUse = false →
          exec .write s = .next (State.latchLevels { s.frontTaken rest with inHand := some (.write w) }))
        ∧ exec .relocate s = .next s)
      ∧ (∀ x rest, s.RelocIsNext x rest →
        (s.mode ≠ .run → exec .relocate s = .next (State.latchLevels (State.raise
            (State.createB { s with relocQueue := rest, shareCount := 0 } (.relocBackoff x.tag .power))
            .backoff)))
          ∧ (s.mode = .run → (s.relocTags.get x.tag).inUse = true →
            exec .relocate s = .next (State.latchLevels (State.raise
              (State.createB { s with relocQueue := rest, shareCount := 0 } (.relocBackoff x.tag .tagInUse))
              .backoff)))
          ∧ (s.mode = .run → (s.relocTags.get x.tag).inUse = false →
            exec .relocate s = .next (State.latchLevels
              { s with relocQueue := rest, shareCount := 0, inHand := some (.relocate x) }))
          ∧ exec .write s = .next s)

/-- A WRITE whose lane has the room is accepted in one access: tag record, sector entries in order, counts of
the stream; nothing else changes before the transmitter's choice (R7, R8, R52, R53, R56). -/
def Obligations.WriteAccepted : Prop :=
  ∀ (s : State) (w : WriteRec) (l : LaneId), s.inReset = false → s.inHand = some (.write w) →
    s.mode = .run → s.PortFree → ∀ d, d = s.streams.get ⟨w.tenant.val * 4 + w.hint.val, by omega⟩ →
    d.admitted = true → (s.groups.get d.group).search (d.pinned.getD d.current) = some l →
    w.length ≤ (s.lanes.get l).room s.settings.unitSize →
    exec .writeClassification s = .next (State.latchLevels (transmitterChoice
      { s with
        inHand := none
        classifierRun := if s.sweep.state = .running then s.classifierRun + 1 else s.classifierRun
        frontTags := s.frontTags.set w.tag ⟨true, w.length, false, w.length, w.stream⟩
        lanes := s.lanes.set l ((s.lanes.get l).appendAll s.settings.unitSize
          (match (s.lanes.get l).owner with
            | some g => (s.groups.get g).sealAge
            | none => 0)
          ((List.range w.length).map fun i =>
            ⟨.front w.tag, d.group, w.stream, w.lba + BitVec.ofNat 48 i, w.handle + BitVec.ofNat 32 i⟩))
        streams := s.streams.set w.stream { d with
          count := if d.count + w.length ≤ 65535 then d.count + w.length else 65535
          written := d.written + BitVec.ofNat 40 w.length } }))

/-- A WRITE in hand that is refused: POWER without an access when the mode changed meanwhile, otherwise CLOSED,
NO-LANE or NO-ROOM in that order within one access; only the BACKOFF, the condition and, for NO-ROOM, the
lane's backoffs counter change (R3, R53, R54, R106; log entry 7). -/
def Obligations.WriteRefused : Prop :=
  ∀ (s : State) (w : WriteRec), s.inReset = false → s.inHand = some (.write w) →
    ∀ d h, d = s.streams.get w.stream → h = { s with inHand := none } →
    (s.mode ≠ .run → exec .writeClassification s =
        .next (State.latchLevels (State.raise (State.createF h (.backoff w.tag .power)) .backoff)))
      ∧ (s.mode = .run → s.PortFree → d.admitted = false → exec .writeClassification s =
        .next (State.latchLevels (transmitterChoice (State.raise
          (State.createF h.accessServed (.backoff w.tag .closed)) .backoff))))
      ∧ (s.mode = .run → s.PortFree → d.admitted = true →
        (∀ c, (s.groups.get d.group).laneMap.get c = none) → exec .writeClassification s =
        .next (State.latchLevels (transmitterChoice (State.raise
          (State.createF h.accessServed (.backoff w.tag .noLane)) .backoff))))
      ∧ (s.mode = .run → s.PortFree → d.admitted = true →
        ∀ l, (s.groups.get d.group).search (d.pinned.getD d.current) = some l →
        (s.lanes.get l).room s.settings.unitSize < w.length → exec .writeClassification s =
        .next (State.latchLevels (transmitterChoice (State.raise (State.createF
          (h.accessServed.setLane l { s.lanes.get l with
            backoffs := if (s.lanes.get l).backoffs < 4294967295 then (s.lanes.get l).backoffs + 1
              else 4294967295 })
          (.backoff w.tag .noRoom)) .backoff))))

/-- A RELOCATE in hand: accepted with its own sectors in list order, its stream untouched, or refused POWER,
NO-LANE or NO-ROOM; admission is not read; POWER is found without an access (R3, R6, R57, R58; log entry
7). -/
def Obligations.RelocateClassified : Prop :=
  ∀ (s : State) (x : RelocateRec), s.inReset = false → s.inHand = some (.relocate x) →
    ∀ d h, d = s.streams.get x.stream → h = { s with inHand := none } →
    (s.mode ≠ .run → exec .relocateClassification s =
        .next (State.latchLevels (State.raise (State.createB h (.relocBackoff x.tag .power)) .backoff)))
      ∧ (s.mode = .run → s.PortFree → (∀ c, (s.groups.get d.group).laneMap.get c = none) →
        exec .relocateClassification s = .next (State.latchLevels (transmitterChoice (State.raise
          (State.createB h.accessServed (.relocBackoff x.tag .noLane)) .backoff))))
      ∧ (s.mode = .run → s.PortFree →
        ∀ l, (s.groups.get d.group).search (d.relocClass.getD 0) = some l →
        ((s.lanes.get l).room s.settings.unitSize < x.sectors.length →
          exec .relocateClassification s =
          .next (State.latchLevels (transmitterChoice (State.raise (State.createB
            (h.accessServed.setLane l { s.lanes.get l with
              backoffs := if (s.lanes.get l).backoffs < 4294967295 then (s.lanes.get l).backoffs + 1
                else 4294967295 })
            (.relocBackoff x.tag .noRoom)) .backoff))))
        ∧ (x.sectors.length ≤ (s.lanes.get l).room s.settings.unitSize →
          exec .relocateClassification s = .next (State.latchLevels (transmitterChoice
            { h.accessServed with
              relocTags := s.relocTags.set x.tag
                ⟨true, x.sectors.length, false, x.sectors.length, x.stream⟩
              lanes := s.lanes.set l ((s.lanes.get l).appendAll s.settings.unitSize
                (match (s.lanes.get l).owner with
                  | some g => (s.groups.get g).sealAge
                  | none => 0)
                (x.sectors.map fun p => ⟨.reloc x.tag, d.group, x.stream, p.1, p.2⟩)) }))))

/-- R37: the search yields the lane of the first class, in the group's fallback order from the wanted class,
whose lane map entry is present, and no lane exactly when no entry is present. -/
def Obligations.FallbackSearch : Prop :=
  ∀ (g : Group) (wanted : HeatClass),
    (g.search wanted = none ↔ ∀ c, g.laneMap.get c = none)
      ∧ ∀ l, g.search wanted = some l ↔ ∃ c, g.laneMap.get c = some l
        ∧ ∀ k, (g.fallback = .colderFirst →
              if c ≤ wanted then c < k ∧ k ≤ wanted else k ≤ wanted ∨ k < c) →
            (g.fallback = .hotterFirst →
              if wanted ≤ c then wanted ≤ k ∧ k < c else wanted ≤ k ∨ c < k) →
            g.laneMap.get k = none

/-- Sectors within a lane's room are appended in order: units that fill are sealed without pads while fewer
than 4 are ready, only the last may wait full, and nothing else of the lane changes but its seal-age timer,
which runs on for the unit it runs for, starts for a unit's first entry and stops for a unit that fills; the
room is the formula of R59 (R59, R60, R74, R75). -/
def Obligations.AppendPlaces : Prop :=
  ∀ (U age : Nat) (ln : Lane) (xs : List Sector),
    ln.room U = (if ln.ready.length < 4 then (U - ln.filling.length) + U * (4 - ln.ready.length)
      else U - ln.filling.length)
    ∧ (0 < U → ln.WaitLaw U → ln.filling.length ≤ U → xs.length ≤ ln.room U →
    ∃ (units : List SealedUnit) (left : List Sector) (timer : Option Nat),
      ln.appendAll U age xs = { ln with filling := left, fresh := ln.fresh ++ units, sealAge := timer }
        ∧ (units.flatMap SealedUnit.entries) ++ left.map .sector = (ln.filling ++ xs).map .sector
        ∧ (∀ u ∈ units, u.entries.length = U ∧ u.attempt = 1)
        ∧ ln.ready.length + units.length ≤ max 4 ln.ready.length
        ∧ left.length ≤ U ∧ (left.length = U → 4 ≤ ln.ready.length + units.length)
        ∧ timer =
          (if xs = [] then ln.sealAge
           else if left = [] ∨ left.length = U then none
           else if units = [] ∧ ln.filling ≠ [] then ln.sealAge
           else if age = 0 then none else some age))

/-! ## Lane timers, issue and the links -/

/-- A due seal-age expiry seals the filling unit, made up with pads that are counted, or flags it; a due
residency expiry makes the timer elapsed (R76, R79, R103; log entry 12). -/
def Obligations.LaneTimersExpire : Prop :=
  ∀ (s : State) (l : LaneId), s.inReset = false →
    ((s.lanes.get l).sealAge = some 0 → (s.lanes.get l).filling ≠ [] →
      (s.lanes.get l).filling.length < s.settings.unitSize →
      exec (.sealAgeExpiry l) s = .next (State.latchLevels (transmitterChoice (s.setLane l
        (if (s.lanes.get l).ready.length < 4 then
          { s.lanes.get l with
            fresh := (s.lanes.get l).fresh ++ [⟨(s.lanes.get l).filling.map .sector
              ++ List.replicate (s.settings.unitSize - (s.lanes.get l).filling.length) .pad, 1⟩]
            sectorsPadded := (s.lanes.get l).sectorsPadded
              + BitVec.ofNat 32 (s.settings.unitSize - (s.lanes.get l).filling.length)
            filling := [], sealAge := none, sealPending := false }
        else { s.lanes.get l with sealAge := none, sealPending := true })))))
    ∧ ((s.lanes.get l).residency = .running 0 → exec (.faultResidencyExpiry l) s =
        .next (State.latchLevels (s.setLane l { s.lanes.get l with residency := .elapsed })))

/-- The end of a record's sending: the F-link sends the next of its list; on the B-link the hold follows the end
of a PROGRAM or of the HOLD-ACK, and the transmitter chooses (R86, R138, R139, R166; log entry 11). -/
def Obligations.SendEnds : Prop :=
  ∀ s : State, s.inReset = false →
    (∀ r, s.fLink.sending = some r → exec .fLinkSendEnd s = .next (State.latchLevels { s with
        fLink := match s.fLink.list with
          | [] => ⟨none, []⟩
          | x :: rest => ⟨some x, rest⟩ }))
      ∧ ∀ r e, s.bLink.sending = some r → e = { s with bLink := { s.bLink with sending := none } } →
        (r ≠ .holdAck → (∀ l b i n U es, r ≠ .program l b i n U es) →
          exec .bLinkSendEnd s = .next (State.latchLevels (transmitterChoice e)))
        ∧ (∀ l b i n U es, r = .program l b i n U es →
          (s.hold = .stopping → exec .bLinkSendEnd s = .next (State.latchLevels (transmitterChoice
              (State.createB { e with hold := .held } .holdAck))))
            ∧ (s.hold = .releasing → exec .bLinkSendEnd s = .next (State.latchLevels (transmitterChoice
              (e.createB .holdAck))))
            ∧ (s.hold = .free ∨ s.hold = .held →
              exec .bLinkSendEnd s = .next (State.latchLevels (transmitterChoice e))))
        ∧ (r = .holdAck → exec .bLinkSendEnd s = .next (State.latchLevels (transmitterChoice
          (if s.hold = .releasing ∧ .holdAck ∉ s.bLink.control then
            State.createB { e with hold := .free } .holdClear
          else e))))

/-- The B-link transmitter's choice: it lets a record being sent run on; idle, it sends the oldest control
record; else, unless the port is held, the first issuable lane after the last lane served, ascending and
wrapping, issues its head (R82, R86, R87). -/
def Obligations.TransmitterChooses : Prop :=
  ∀ s : State,
    (s.bLink.sending ≠ none → transmitterChoice s = s)
      ∧ (s.bLink.sending = none → ∀ r rest, s.bLink.control = r :: rest →
        transmitterChoice s = { s with bLink := { s.bLink with sending := some r, control := rest } })
      ∧ (s.bLink.sending = none → s.bLink.control = [] →
        (s.hold ≠ .free ∨ ∀ l, ¬ (s.lanes.get l).Issuable) → transmitterChoice s = s)
      ∧ (s.bLink.sending = none → s.bLink.control = [] → s.hold = .free →
        ∀ l : LaneId, (s.lanes.get l).Issuable →
        (∀ m : LaneId, (s.lanes.get m).Issuable →
          (l.val + 47 - s.bLink.lastServed.val) % 48 ≤ (m.val + 47 - s.bLink.lastServed.val) % 48) →
        transmitterChoice s = issue l s)

/-- Issue, stage by stage: the head leaves the ready queue, takes the block and its index, joins the
outstanding list with its timer; the PROGRAM is sent; the index rises, or the block is complete and the lane
pops and makes the want check; then a full or flagged filling unit seals (R72, R83, R111, R112, R115; log
entries 20 and 23). -/
def Obligations.IssueOfAUnit : Prop :=
  ∀ (s : State) (l : LaneId) (u : SealedUnit) (q f : List SealedUnit) (k : BlockAddr) (n : Nat)
    (again : Bool) (b b' : Lane) (wants : List BRecord),
    ((s.lanes.get l).requeued = u :: q ∧ (s.lanes.get l).fresh = f ∧ again = true
      ∨ (s.lanes.get l).requeued = [] ∧ q = [] ∧ (s.lanes.get l).fresh = u :: f ∧ again = false) →
    (s.lanes.get l).current = some k → (s.lanes.get l).nextIndex = n →
    ((s.lanes.get l).state = .opened ∨ (s.lanes.get l).state = .draining) →
    b = { s.lanes.get l with
      requeued := q, fresh := f
      outstanding := (s.lanes.get l).outstanding
        ++ [⟨u.entries, k, n, u.attempt, again, s.settings.resultTimeout⟩]
      unitsIssued := (s.lanes.get l).unitsIssued + 1 } →
    (n + 1 < s.settings.unitsPerBlock ∧ wants = [] ∧ b' = { b with nextIndex := n + 1 }
      ∨ s.settings.unitsPerBlock ≤ n + 1 ∧ b.reserve = []
        ∧ wants = (if b.want then [] else [.want l 8])
        ∧ b' = { b with
            current := none, nextIndex := 0, blocksCompleted := b.blocksCompleted + 1, want := true }
      ∨ ∃ x rest, s.settings.unitsPerBlock ≤ n + 1 ∧ b.reserve = x :: rest
        ∧ wants = (if b.want = false ∧ rest.length ≤ s.settings.refillMark then [.want l (8 - rest.length)]
            else [])
        ∧ b' = { b with
            current := some x, nextIndex := 0, reserve := rest, blocksCompleted := b.blocksCompleted + 1
            want := b.want || decide (rest.length ≤ s.settings.refillMark) }) →
    issue l s = State.createAllB { s with
        lanes := s.lanes.set l
          (if b'.filling ≠ [] ∧ b'.ready.length < 4
              ∧ (s.settings.unitSize ≤ b'.filling.length ∨ b'.sealPending = true) then
            b'.sealFilling s.settings.unitSize
          else b')
        bLink := { s.bLink with
          sending := some (.program l k n u.attempt s.settings.unitSize u.entries)
          lastServed := l } } wants

/-! ## Lane requests -/

/-- The completion check of a flush: while FLUSHING with no lane holding work, FLUSH-DONE is created and the mode
becomes FLUSHED, or RUN with the level deasserted; otherwise nothing (R145, R146). -/
def Obligations.FlushCompletion : Prop :=
  ∀ s : State,
    (s.mode = .flushing → (∀ l, (s.lanes.get l).filling = [] ∧ (s.lanes.get l).ready = []
        ∧ (s.lanes.get l).outstanding = []) →
      flushCheck s = { s.createF .flushDone with mode := if s.warning = true then .flushed else .run })
    ∧ ((s.mode ≠ .flushing ∨ ∃ l, ¬ ((s.lanes.get l).filling = [] ∧ (s.lanes.get l).ready = []
        ∧ (s.lanes.get l).outstanding = [])) → flushCheck s = s)

/-- DRAIN, by the state of the lane: the map entries naming it cleared, the filling unit sealed, flagged or left,
the timer stopped; a lane with nothing left closes in the same step, its blocks handed back in order (R45,
R80, R94, R95, R97; log entries 9 and 20). -/
def Obligations.Drain : Prop :=
  ∀ (s base : State) (id : BitVec 16) (l : LaneId) (ln : Lane) (rest : List FrontRec) (lane : LaneField),
    s.FrontIsNext (.admin ⟨id, .laneRequest lane .drain⟩) rest → lane.val = l.val →
    base = s.frontTaken rest → ln = s.lanes.get l →
    (ln.state = .draining → exec .drain s =
        .next (State.latchLevels (base.createF (.adminReply id .ok .none))))
      ∧ (ln.state = .closed ∨ ln.state = .fault → exec .drain s =
        .next (State.latchLevels (base.createF (.adminReply id .state .none))))
      ∧ (ln.state = .opening ∨ ln.state = .opened → ∃ groups,
        (∀ g, (groups.get g).fallback = (s.groups.get g).fallback
          ∧ (groups.get g).sealAge = (s.groups.get g).sealAge
          ∧ ∀ c, (groups.get g).laneMap.get c =
            if (s.groups.get g).laneMap.get c = some l then none else (s.groups.get g).laneMap.get c)
        ∧ (ln.holdsWork = true → exec .drain s = .next (State.latchLevels (transmitterChoice (State.createF
          { base with
            groups := groups
            lanes := s.lanes.set l
              { (if ln.filling = [] then ln
                 else if ln.ready.length < 4 then ln.sealFilling s.settings.unitSize
                 else if ln.filling.length < s.settings.unitSize then { ln with sealPending := true }
                 else ln) with state := .draining, sealAge := none } }
          (.adminReply id .ok .none)))))
        ∧ (ln.holdsWork = false → exec .drain s = .next (State.latchLevels (transmitterChoice (State.createF
          (flushCheck (State.createAllB { base with
            groups := groups
            lanes := s.lanes.set l { ln with
              state := .closed, owner := none, want := false, current := none, nextIndex := 0
              reserve := [], sealAge := none } }
            ((match ln.current with
              | some k => [.giveback lane k (if ln.nextIndex = 0 then .unused else .partlyUsed)
                  (if ln.nextIndex = 0 then none else some ln.nextIndex)]
              | none => [])
              ++ ln.reserve.map fun b => .giveback lane b .unused none)))
          (.adminReply id .ok .none))))))

/-- STOP, and FAULT entry said whole: maps, timer and flag; the ready units and then the filling unit discarded
and settled failed; the reserve stack handed back UNUSED; the residency timer started; the current block
handed back FAULTED when nothing is outstanding (R46, R94, R99, R100, R102; log entries 9 and
20). -/
def Obligations.StopAndFaultEntry : Prop :=
  ∀ (s : State) (l : LaneId) (ln : Lane), ln = s.lanes.get l →
    (∃ groups,
      (∀ g, (groups.get g).fallback = (s.groups.get g).fallback
          ∧ (groups.get g).sealAge = (s.groups.get g).sealAge
          ∧ ∀ c, (groups.get g).laneMap.get c =
            if (s.groups.get g).laneMap.get c = some l then none else (s.groups.get g).laneMap.get c)
        ∧ faultEntry l s = State.createAllB
          (settleEntries false (ln.ready.flatMap SealedUnit.entries ++ ln.filling.map .sector) { s with
            groups := groups
            lanes := s.lanes.set l { ln with
              state := .fault, sealAge := none, sealPending := false, requeued := [], fresh := []
              filling := [], reserve := [], residency := .running s.settings.faultResidency
              current := if ln.outstanding = [] then none else ln.current
              nextIndex := if ln.outstanding = [] ∧ ln.current ≠ none then 0 else ln.nextIndex } })
          ((ln.reserve.map fun b => .giveback (LaneId.field l) b .unused none)
            ++ if ln.outstanding = [] then
                ln.current.toList.map fun b => .giveback (LaneId.field l) b .faulted none
              else []))
      ∧ ∀ (id : BitVec 16) (rest : List FrontRec) (lane : LaneField),
        s.FrontIsNext (.admin ⟨id, .laneRequest lane .stop⟩) rest → lane.val = l.val →
        (ln.state = .opening ∨ ln.state = .opened ∨ ln.state = .draining → exec .stop s =
            .next (State.latchLevels
              ((flushCheck (faultEntry l (s.frontTaken rest))).createF (.adminReply id .ok .none))))
          ∧ (ln.state = .closed ∨ ln.state = .fault → exec .stop s =
            .next (State.latchLevels ((s.frontTaken rest).createF (.adminReply id .state .none))))

/-- CLEAR, its checks in order and its effect; and every request for lanes 48 to 63 is answered BAD-INDEX and
changes nothing (R94, R104). -/
def Obligations.ClearAndBadLane : Prop :=
  ∀ (s base : State) (id : BitVec 16) (rest : List FrontRec) (lane : LaneField), base = s.frontTaken rest →
    (s.FrontIsNext (.admin ⟨id, .laneRequest lane .clear⟩) rest → ∀ l : LaneId, lane.val = l.val →
      ((s.lanes.get l).state ≠ .fault ∨ (s.lanes.get l).outstanding ≠ [] → exec .clear s =
          .next (State.latchLevels (base.createF (.adminReply id .state .none))))
        ∧ ((s.lanes.get l).state = .fault → (s.lanes.get l).outstanding = [] →
          (s.lanes.get l).residency ≠ .elapsed → exec .clear s =
          .next (State.latchLevels (base.createF (.adminReply id .tooSoon .none))))
        ∧ ((s.lanes.get l).state = .fault → (s.lanes.get l).outstanding = [] →
          (s.lanes.get l).residency = .elapsed → exec .clear s =
          .next (State.latchLevels (State.createF
            { base with lanes := s.lanes.set l { s.lanes.get l with
                state := .closed, owner := none, want := false, residency := .stopped } }
            (.adminReply id .ok .none)))))
      ∧ ∀ (c : Instr) (action : LaneAction),
        (c, action) ∈ [(Instr.drain, LaneAction.drain), (.stop, .stop), (.clear, .clear)] →
        s.FrontIsNext (.admin ⟨id, .laneRequest lane action⟩) rest → 48 ≤ lane.val →
        exec c s = .next (State.latchLevels (base.createF (.adminReply id .badIndex .none)))

/-! ## Results -/

/-- A RESULT that matches no outstanding unit of the lane it names raises UNMATCHED-RESULT and changes nothing
else, whatever its outcome (R123). -/
def Obligations.UnmatchedResult : Prop :=
  ∀ (s : State) (lane : LaneField) (b : BlockAddr) (i : Fin 2048) (c : Instr), s.inReset = false →
    c ∈ [Instr.resultOk lane b i, .resultFail lane b i, .resultAborted lane b i] →
    (48 ≤ lane.val ∨ ∃ l : LaneId, l.val = lane.val
      ∧ ((s.lanes.get l).state = .closed ∨ (s.lanes.get l).state = .opening
        ∨ ∀ u ∈ (s.lanes.get l).outstanding, ¬ (u.block = b ∧ u.index = i.val))) →
    exec c s = .next (State.latchLevels (s.raise .unmatchedResult))

/-- A matched OK in OPEN or DRAINING: the unit leaves the list, its sectors are settled as programmed, a DRAINING
lane with nothing left closes and hands back its blocks, and a flush may complete (R97, R122, R124; log entry
20). -/
def Obligations.ResultOk : Prop :=
  ∀ (s r : State) (lane : LaneField) (l : LaneId) (ln : Lane) (u : Issued) (i : Fin 2048)
    (xs ys : List Issued), s.inReset = false → lane.val = l.val → u.index = i.val →
    s.lanes.get l = { ln with outstanding := xs ++ u :: ys } → ln.outstanding = xs ++ ys →
    (∀ v ∈ xs, ¬ (v.block = u.block ∧ v.index = u.index)) →
    (ln.state = .opened ∨ ln.state = .draining) →
    r = settleEntries true u.entries { s with lanes := s.lanes.set l ln } →
    (ln.state = .opened ∨ ln.holdsWork = true → exec (.resultOk lane u.block i) s =
        .next (State.latchLevels (transmitterChoice (flushCheck r))))
      ∧ (ln.state = .draining → ln.holdsWork = false → exec (.resultOk lane u.block i) s =
        .next (State.latchLevels (transmitterChoice (flushCheck (State.createAllB
          (r.setLane l { ln with
            state := .closed, owner := none, want := false, current := none, nextIndex := 0
            reserve := [] })
          ((match ln.current with
            | some k => [.giveback lane k (if ln.nextIndex = 0 then .unused else .partlyUsed)
                (if ln.nextIndex = 0 then none else some ln.nextIndex)]
            | none => [])
            ++ ln.reserve.map fun b => .giveback lane b .unused none))))))

/-- A matched FAIL on a first or second attempt, and a matched ABORTED that faults nothing, in OPEN or DRAINING:
the unit is re-queued ahead of every fresh unit; a block that is current is handed back BAD and the next is
sought (R126, R127, R128, R130, R131; log entry 20). -/
def Obligations.FailedUnitRequeued : Prop :=
  ∀ (s base : State) (lane : LaneField) (l : LaneId) (ln : Lane) (u : Issued) (i : Fin 2048)
    (xs ys : List Issued) (c : Instr), s.inReset = false → lane.val = l.val → u.index = i.val →
    s.lanes.get l = { ln with outstanding := xs ++ u :: ys } → ln.outstanding = xs ++ ys →
    (∀ v ∈ xs, ¬ (v.block = u.block ∧ v.index = u.index)) →
    (ln.state = .opened ∨ ln.state = .draining) →
    (c = .resultFail lane u.block i ∧ u.attempt < 3 ∧ base = takeCapture .programFail l u (s.raise .programFail)
      ∨ c = .resultAborted lane u.block i ∧ base = s) →
    (ln.current ≠ some u.block → exec c s =
        .next (State.latchLevels (transmitterChoice { base with lanes := s.lanes.set l { ln with
          requeued := ln.requeued
            ++ [⟨u.entries, if c = .resultAborted lane u.block i then u.attempt else u.attempt + 1⟩] } })))
      ∧ (ln.current = some u.block → u.attempt < 3 →
        (ln.reserve = [] → exec c s = .next (State.latchLevels (transmitterChoice (State.createAllB
          { base with lanes := s.lanes.set l { ln with
              current := none, nextIndex := 0, want := true
              requeued := ln.requeued ++ [⟨u.entries, u.attempt + 1⟩] } }
          (.giveback lane u.block .bad (some u.index) :: if ln.want then [] else [.want l 8])))))
        ∧ ∀ x rest, ln.reserve = x :: rest → exec c s =
          .next (State.latchLevels (transmitterChoice (State.createAllB
          { base with lanes := s.lanes.set l { ln with
              current := some x, nextIndex := 0, reserve := rest
              want := ln.want || decide (rest.length ≤ s.settings.refillMark)
              requeued := ln.requeued ++ [⟨u.entries, u.attempt + 1⟩] } }
          (.giveback lane u.block .bad (some u.index)
            :: if ln.want = false ∧ rest.length ≤ s.settings.refillMark then [.want l (8 - rest.length)]
              else [])))))

/-- The third failure, and any matched result in FAULT: the unit's sectors are settled, failed unless the outcome
is OK; the lane enters FAULT, or in FAULT hands back its current block FAULTED once its list is empty (R101,
R102, R124, R129, R130, R131; log entry 20). -/
def Obligations.UnitGivenUp : Prop :=
  ∀ (s base : State) (lane : LaneField) (l : LaneId) (ln : Lane) (u : Issued) (i : Fin 2048)
    (xs ys : List Issued) (c : Instr), s.inReset = false → lane.val = l.val → u.index = i.val →
    s.lanes.get l = { ln with outstanding := xs ++ u :: ys } → ln.outstanding = xs ++ ys →
    (∀ v ∈ xs, ¬ (v.block = u.block ∧ v.index = u.index)) →
    (c = .resultFail lane u.block i
        ∧ base = takeCapture .programFail l u (State.raise { s with lanes := s.lanes.set l ln } .programFail)
      ∨ (c = .resultAborted lane u.block i ∨ c = .resultOk lane u.block i)
        ∧ base = { s with lanes := s.lanes.set l ln }) →
    ((ln.state = .opened ∨ ln.state = .draining) → 3 ≤ u.attempt →
        (c = .resultFail lane u.block i
          ∨ c = .resultAborted lane u.block i ∧ ln.current = some u.block) →
        exec c s = .next (State.latchLevels (transmitterChoice
          (flushCheck (faultEntry l (settleEntries false u.entries base))))))
      ∧ (ln.state = .fault → ∀ r, r = settleEntries (decide (c = .resultOk lane u.block i)) u.entries base →
        (xs ++ ys ≠ [] ∨ ln.current = none →
          exec c s = .next (State.latchLevels (transmitterChoice (flushCheck r))))
        ∧ ∀ k, xs ++ ys = [] → ln.current = some k →
          exec c s = .next (State.latchLevels (transmitterChoice (flushCheck
            ((r.setLane l { ln with current := none, nextIndex := 0 }).createB
              (.giveback lane k .faulted none))))))

/-- The expiry of a result timer: the unit's sectors are settled failed, RESULT-TIMEOUT is raised and captured, and
an OPEN or DRAINING lane enters FAULT; in FAULT only the FAULTED handback can follow (R99, R102, R133; log
entries 12 and 20). -/
def Obligations.ResultTimeout : Prop :=
  ∀ (s r : State) (l : LaneId) (ln : Lane) (u : Issued) (place : Fin 4) (xs ys : List Issued),
    s.inReset = false → s.lanes.get l = { ln with outstanding := xs ++ u :: ys } →
    ln.outstanding = xs ++ ys → xs.length = place.val → u.timer = 0 →
    r = takeCapture .resultTimeout l u
      (State.raise (settleEntries false u.entries { s with lanes := s.lanes.set l ln }) .resultTimeout) →
    (ln.state = .opened ∨ ln.state = .draining → exec (.resultTimeout l place) s =
        .next (State.latchLevels (flushCheck (faultEntry l r))))
      ∧ (ln.state = .fault → (xs ++ ys ≠ [] ∨ ln.current = none) → exec (.resultTimeout l place) s =
        .next (State.latchLevels (flushCheck r)))
      ∧ ∀ k, ln.state = .fault → xs ++ ys = [] → ln.current = some k → exec (.resultTimeout l place) s =
        .next (State.latchLevels (flushCheck ((r.setLane l { ln with current := none, nextIndex := 0 }).createB
          (.giveback (LaneId.field l) k .faulted none))))

/-- Settling entries: each tag's remaining count falls by its entries, a failed entry marks it, and a tag that
reaches 0 is freed and answered once, with its outcome, in the position order of the entries that end it;
records and links change in no other way (R62, R135, R136). -/
def Obligations.Settling : Prop :=
  ∀ (s t : State) (ok : Bool) (es : List Entry) (n left : TagRef → Nat),
    (∀ x, n x = es.countP (Entry.carries x)) →
    (∀ i, left (.front i) = (s.frontTags.get i).remaining ∧ n (.front i) ≤ left (.front i)
      ∧ ((s.frontTags.get i).inUse = true ↔ 1 ≤ left (.front i))) →
    (∀ i, left (.reloc i) = (s.relocTags.get i).remaining ∧ n (.reloc i) ≤ left (.reloc i)
      ∧ ((s.relocTags.get i).inUse = true ↔ 1 ≤ left (.reloc i))) →
    t = settleEntries ok es s →
    ∃ dones relocDones, t.outF = s.outF ++ dones ∧ t.outB = s.outB ++ relocDones
      ∧ t = { s with frontTags := t.frontTags, relocTags := t.relocTags, fLink := t.fLink, bLink := t.bLink }
      ∧ dones = (endedTags left es).filterMap (fun x => match x with
          | .front i => some (.done i ((s.frontTags.get i).failed || !ok))
          | .reloc _ => none)
      ∧ relocDones = (endedTags left es).filterMap (fun x => match x with
          | .front _ => none
          | .reloc i => some (.relocDone i ((s.relocTags.get i).failed || !ok)))
      ∧ (∀ i r, r = s.frontTags.get i → t.frontTags.get i = { r with
            remaining := r.remaining - n (.front i)
            failed := r.failed || (!ok && decide (0 < n (.front i)))
            inUse := decide (n (.front i) < r.remaining) }
          ∧ dones.filter (fun d => match d with | .done j _ => j == i | _ => true) =
            if 0 < n (.front i) ∧ n (.front i) = r.remaining then [.done i (r.failed || !ok)] else [])
      ∧ ∀ i r, r = s.relocTags.get i → t.relocTags.get i = { r with
            remaining := r.remaining - n (.reloc i)
            failed := r.failed || (!ok && decide (0 < n (.reloc i)))
            inUse := decide (n (.reloc i) < r.remaining) }
          ∧ relocDones.filter (fun d => match d with | .relocDone j _ => j == i | _ => true) =
            if 0 < n (.reloc i) ∧ n (.reloc i) = r.remaining then [.relocDone i (r.failed || !ok)] else []

/-! ## Grants and the hold -/

/-- R116: a GRANT that fails a check changes no lane: it is handed back with the reason of the first check that
fails, and raises GRANT-REFUSED. -/
def Obligations.GrantRefused : Prop :=
  ∀ (s : State) (lane : LaneField) (b : BlockAddr) (why : GivebackReason), s.inReset = false →
    ((48 ≤ lane.val ∧ why = .refused)
      ∨ ∃ l : LaneId, l.val = lane.val ∧ ∃ bad,
        (bad ↔ (s.lanes.get l).state = .closed ∨ (s.lanes.get l).state = .fault
          ∨ ((s.lanes.get l).state = .draining ∧ (s.lanes.get l).current ≠ none))
        ∧ (bad ∧ why = .refused
          ∨ ¬ bad ∧ b ∈ s.blocks ∧ why = .duplicate
          ∨ ¬ bad ∧ b ∉ s.blocks ∧ 8 ≤ (s.lanes.get l).reserve.length ∧ why = .full)) →
    exec (.grant lane b) s = .next (State.latchLevels (transmitterChoice
      ((s.createB (.giveback lane b why none)).raise .grantRefused)))

/-- R117: an accepted GRANT is pushed and clears the want flag; a lane that needs a block pops it at once, an
OPENING lane becoming OPEN, and makes the want check. -/
def Obligations.GrantAccepted : Prop :=
  ∀ (s : State) (lane : LaneField) (b : BlockAddr) (l : LaneId) (ln : Lane), s.inReset = false →
    lane.val = l.val → ln = s.lanes.get l → b ∉ s.blocks → ln.reserve.length < 8 →
    (ln.current ≠ none → (ln.state = .opening ∨ ln.state = .opened) → exec (.grant lane b) s =
        .next (State.latchLevels (transmitterChoice
          (s.setLane l { ln with reserve := b :: ln.reserve, want := false }))))
      ∧ (ln.current = none → (ln.state = .opening ∨ ln.state = .opened ∨ ln.state = .draining) →
        exec (.grant lane b) s = .next (State.latchLevels (transmitterChoice (State.createAllB
          (s.setLane l { ln with
            current := some b, nextIndex := 0
            state := if ln.state = .opening then .opened else ln.state
            want := decide (ln.reserve.length ≤ s.settings.refillMark) })
          (if ln.reserve.length ≤ s.settings.refillMark then [.want l (8 - ln.reserve.length)] else [])))))

/-- The hold handshake, by the state it finds: HOLD-ON waits for a PROGRAM being sent, HOLD-OFF for the HOLD-ACK's
sending; the rest are violations that raise HOLD-PROTOCOL and change nothing (R138, R139, R140). -/
def Obligations.HoldHandshake : Prop :=
  ∀ s : State, s.inReset = false →
    (s.hold = .free →
      ((∃ l b i n U es, s.bLink.sending = some (.program l b i n U es)) →
        exec .holdOn s = .next (State.latchLevels { s with hold := .stopping }))
      ∧ ((∀ l b i n U es, s.bLink.sending ≠ some (.program l b i n U es)) →
        exec .holdOn s = .next (State.latchLevels (State.createB { s with hold := .held } .holdAck))))
    ∧ (s.hold = .held →
      (BRecord.holdAck ∈ s.outB → exec .holdOff s = .next (State.latchLevels { s with hold := .releasing }))
      ∧ (BRecord.holdAck ∉ s.outB → exec .holdOff s = .next (State.latchLevels (transmitterChoice
          (State.createB { s with hold := .free } .holdClear)))))
    ∧ (s.hold = .stopping → exec .holdOff s = .next (State.latchLevels { s with hold := .releasing }))
    ∧ (s.hold ≠ .free → exec .holdOn s = .next (State.latchLevels (s.raise .holdProtocol)))
    ∧ (s.hold = .free ∨ s.hold = .releasing →
      exec .holdOff s = .next (State.latchLevels (s.raise .holdProtocol)))

/-! ## Arrivals, conditions and captures -/

/-- A well-formed record joins its queue, FHOLD following its marks, or is answered at once when the queue is full:
BACKOFF QUEUE-FULL, ADMIN-REPLY FULL, RELOC-BACKOFF QUEUE-FULL (R163, R164, R165). -/
def Obligations.Arrivals : Prop :=
  ∀ (s : State) (body : List Byte), s.inReset = false →
    (∀ (c : Instr) (r : FrontRec),
      (c = .writeArrival body ∧ (∃ w, parseRecord .front (1 :: body) = some (.write w) ∧ r = .write w)
        ∨ c = .adminArrival body ∧ ∃ a, parseRecord .front (2 :: body) = some (.admin a) ∧ r = .admin a) →
      (s.frontQueue.length < 256 → exec c s = .next (State.latchLevels { s with
          frontQueue := s.frontQueue ++ [r]
          fhold := if s.fhold then decide (255 - s.frontQueue.length < 32)
            else decide (255 - s.frontQueue.length ≤ 16) }))
      ∧ (256 ≤ s.frontQueue.length → exec c s = .next (State.latchLevels
          (match r with
            | .write w => (s.createF (.backoff w.tag .queueFull)).raise .backoff
            | .admin a => s.createF (.adminReply a.id .full .none)))))
    ∧ ∀ x, parseRecord .back (0x43 :: body) = some (.relocate x) →
      (s.relocQueue.length < 64 → exec (.relocateArrival body) s =
          .next (State.latchLevels { s with relocQueue := s.relocQueue ++ [x] }))
      ∧ (64 ≤ s.relocQueue.length → exec (.relocateArrival body) s = .next (State.latchLevels
          ((s.createB (.relocBackoff x.tag .queueFull)).raise .backoff)))

/-- A malformed record is discarded whole: LINK-FORMAT is raised, before any look at a full queue, and nothing
else changes (R162). -/
def Obligations.MalformedRecords : Prop :=
  ∀ (s : State) (body bytes : List Byte) (link : Link) (c : Instr), s.inReset = false →
    (c = .writeArrival body ∧ parseRecord .front (1 :: body) = none
      ∨ c = .adminArrival body ∧ parseRecord .front (2 :: body) = none
      ∨ c = .relocateArrival body ∧ parseRecord .back (0x43 :: body) = none
      ∨ c = .malformedRecord link bytes ∧ parseRecord link bytes = none) →
    exec c s = .next (State.latchLevels (s.raise .linkFormat))

/-- CONDITION-READ reports all items and changes nothing; CONDITION-CLEAR clears the latches named, live level
sources latching again, or answers BAD-VALUE; CAPTURE-TAKE returns and frees the oldest capture with the flag,
then clears the flag; a capture joins while fewer than 2 are held (R156, R157, R159, R160). -/
def Obligations.ConditionsAndCaptures : Prop :=
  ∀ (s base : State) (id : BitVec 16) (rest : List FrontRec), base = s.frontTaken rest →
    (s.FrontIsNext (.admin ⟨id, .conditionRead⟩) rest → exec .conditionRead s =
        .next (State.latchLevels (base.createF (.adminReply id .ok (.conditions
          { enables := s.settings.enables, latchEnables := s.settings.latchEnables, latches := s.latches
            liveLaneFault := s.liveLaneFault, liveReserve := s.liveReserveEmpty
            liveFlush := decide (s.mode = .flushing), warningSummary := s.warningSummary
            errorSummary := s.errorSummary, attn := s.attn, held := s.captures.length
            oldest := s.captures.head?.map Capture.kind, lost := s.captureLost, time := s.time })))))
      ∧ (∀ sources : BitVec 16, s.FrontIsNext (.admin ⟨id, .conditionClear sources⟩) rest →
        (2048 ≤ sources.toNat → exec .conditionClear s =
            .next (State.latchLevels (base.createF (.adminReply id .badValue .none))))
          ∧ (sources.toNat < 2048 → ∀ x, x = (s.latches &&& ~~~(sources.setWidth 11)) ||| (s.liveSet &&& s.latchable) →
            exec .conditionClear s = .next (State.latchLevels
              (State.createF { base with latches := x } (.adminReply id .ok (.latches x))))))
      ∧ (s.FrontIsNext (.admin ⟨id, .captureTake⟩) rest → exec .captureTake s =
        .next (State.latchLevels (State.createF
          { base with captures := s.captures.tail, captureLost := false }
          (.adminReply id .ok (.capture s.captures.head? s.captureLost)))))
      ∧ ∀ (kind : CaptureKind) (l : LaneId) (u : Issued),
        (2 ≤ s.captures.length → takeCapture kind l u s = { s with captureLost := true })
          ∧ ∀ x es, s.captures.length < 2 → u.entries = .sector x :: es →
            takeCapture kind l u s = { s with captures := s.captures
              ++ [⟨kind, l, u.block, u.index, u.attempt, some x.stream, s.time⟩] }

/-- ATTN_N and the latches: the line is asserted exactly while, out of reset, an enabled source is latched or is a
live level source, that is while the warning or the error summary is true; a raise sets its latch, and a step
the latches of live sources, only under both enables; the sources are numbered 0 to 10 in the order of R151's
table (R151, R153, R154, R155, R173). -/
def Obligations.AttnAndLatches : Prop :=
  ∀ (s : State) (live : Source → Prop),
    (∀ x, live x ↔ (x = .laneFault ∧ ∃ l, (s.lanes.get l).state = .fault)
      ∨ (x = .reserveEmpty ∧ ∃ l, (s.lanes.get l).state = .opening
          ∨ (((s.lanes.get l).state = .opened ∨ (s.lanes.get l).state = .draining)
              ∧ (s.lanes.get l).current = none ∧ (s.lanes.get l).reserve = []))
      ∨ (x = .powerFlush ∧ s.mode = .flushing)) →
    [Source.programFail, .resultTimeout, .laneFault, .unmatchedResult, .reserveEmpty, .grantRefused, .backoff,
        .tickLost, .linkFormat, .holdProtocol, .powerFlush].map sourceNum = List.range 11
      ∧ (s.attn = true ↔ s.inReset = false ∧ ∃ x, s.settings.enables.getLsbD (sourceNum x) = true
        ∧ (s.latches.getLsbD (sourceNum x) = true ∨ live x))
      ∧ (s.warningSummary = true ↔ ∃ x ∉ [Source.resultTimeout, .laneFault, .linkFormat],
          s.settings.enables.getLsbD (sourceNum x) = true
            ∧ (s.latches.getLsbD (sourceNum x) = true ∨ live x))
      ∧ (s.errorSummary = true ↔ ∃ x ∈ [Source.resultTimeout, .laneFault, .linkFormat],
          s.settings.enables.getLsbD (sourceNum x) = true
            ∧ (s.latches.getLsbD (sourceNum x) = true ∨ live x))
      ∧ (∀ x y, (s.raise x).latches.getLsbD (sourceNum y) = true ↔
          s.latches.getLsbD (sourceNum y) = true ∨ (y = x
            ∧ s.settings.enables.getLsbD (sourceNum x) = true
            ∧ s.settings.latchEnables.getLsbD (sourceNum x) = true))
      ∧ ∀ y, s.latchLevels.latches.getLsbD (sourceNum y) = true ↔
          s.latches.getLsbD (sourceNum y) = true ∨ (live y
            ∧ s.settings.enables.getLsbD (sourceNum y) = true
            ∧ s.settings.latchEnables.getLsbD (sourceNum y) = true)

/-! ## The records as bytes -/

/-- Every well-formed inbound record, with every field at every value its layout admits, is read back from its
bytes on its own link; and every record, inbound and outbound, has the size of its layout, and its kind code,
fields, operands, entries and reply items stand at their offsets, least significant byte first, with the
codes that the manual gives (R161, R173). -/
def Obligations.RecordReadBack : Prop :=
  (∀ r : InRecord, r.wellFormed = true → parseRecord r.link (layoutRecord r) = some r)
    ∧ (∀ w : WriteRec, w.length ≤ 32 → Layout (layoutRecord (.write w)) 16
        [(0, 1, 0x01), (1, 1, w.tenant.val), (2, 1, w.hint.val), (3, 1, w.length), (4, 2, w.tag.val),
          (6, 6, w.lba.toNat), (12, 4, w.handle.toNat)])
    ∧ (∀ (id : BitVec 16) (code : Byte) (index : BitVec 16),
        Layout (layoutRecord (.admin ⟨id, .tableRead code index⟩)) 8
          [(0, 1, 0x02), (1, 1, 1), (2, 2, id.toNat), (4, 1, 3), (5, 1, code.toNat), (6, 2, index.toNat)])
    ∧ (∀ (id : BitVec 16) (code : Byte) (index : BitVec 16) (fields : List (Byte × BitVec 64)),
        fields.length ≤ 27 →
        Layout (layoutRecord (.admin ⟨id, .tableWrite code index fields⟩)) (9 + 9 * fields.length)
          ([(0, 1, 0x02), (1, 1, 2), (2, 2, id.toNat), (4, 1, 4 + 9 * fields.length), (5, 1, code.toNat),
            (6, 2, index.toNat), (8, 1, fields.length)]
            ++ (fields.mapIdx fun k p =>
              [(9 + 9 * k, 1, p.1.toNat), (10 + 9 * k, 8, p.2.toNat)]).flatten))
    ∧ (∀ action code, (action, code) ∈ [(LaneAction.drain, 1), (.stop, 2), (.clear, 3)] →
        ∀ (id : BitVec 16) (lane : LaneField),
        Layout (layoutRecord (.admin ⟨id, .laneRequest lane action⟩)) 7
          [(0, 1, 0x02), (1, 1, 3), (2, 2, id.toNat), (4, 1, 2), (5, 1, lane.val), (6, 1, code)])
    ∧ (∀ id sources : BitVec 16, Layout (layoutRecord (.admin ⟨id, .conditionClear sources⟩)) 7
        [(0, 1, 0x02), (1, 1, 5), (2, 2, id.toNat), (4, 1, 2), (5, 2, sources.toNat)])
    ∧ (∀ req code, (req, code) ∈ [(AdminReq.conditionRead, 4), (.captureTake, 6), (.softReset, 7)] →
        ∀ id : BitVec 16, Layout (layoutRecord (.admin ⟨id, req⟩)) 5
          [(0, 1, 0x02), (1, 1, code), (2, 2, id.toNat), (4, 1, 0)])
    ∧ (∀ outcome code, (outcome, code) ∈ [(ResultOutcome.ok, 0), (.fail, 1), (.aborted, 2)] →
        ∀ (lane : LaneField) (b : BlockAddr) (index : Fin 2048),
        Layout (layoutRecord (.result lane outcome b index)) 9
          [(0, 1, 0x41), (1, 1, lane.val), (2, 1, code), (3, 4, b.toNat), (7, 2, index.val)])
    ∧ (∀ (lane : LaneField) (b : BlockAddr), Layout (layoutRecord (.grant lane b)) 6
        [(0, 1, 0x42), (1, 1, lane.val), (2, 4, b.toNat)])
    ∧ (∀ x : RelocateRec, x.sectors.length ≤ 8 →
        Layout (layoutRecord (.relocate x)) (6 + 10 * x.sectors.length)
          ([(0, 1, 0x43), (1, 2, x.tag.val), (3, 2, x.stream.val), (5, 1, x.sectors.length)]
            ++ (x.sectors.mapIdx fun k p =>
              [(6 + 10 * k, 6, p.1.toNat), (12 + 10 * k, 4, p.2.toNat)]).flatten))
    ∧ layoutRecord .holdOn = [0x44] ∧ layoutRecord .holdOff = [0x45]
    ∧ (∀ (tag : FrontTag) (failed : Bool),
        Layout (layoutF (.done tag failed)) 4 [(0, 1, 0x81), (1, 2, tag.val), (3, 1, if failed then 1 else 0)])
    ∧ (∀ (tag : RelocTag) (failed : Bool),
        Layout (layoutB (.relocDone tag failed)) 4
          [(0, 1, 0xC4), (1, 2, tag.val), (3, 1, if failed then 1 else 0)])
    ∧ (∀ why code, (why, code) ∈ [(BackoffReason.power, 0), (.tagInUse, 1), (.closed, 2), (.noLane, 3),
          (.noRoom, 4), (.queueFull, 5)] →
        (∀ tag : FrontTag, Layout (layoutF (.backoff tag why)) 4 [(0, 1, 0x82), (1, 2, tag.val), (3, 1, code)])
          ∧ ∀ tag : RelocTag,
            Layout (layoutB (.relocBackoff tag why)) 4 [(0, 1, 0xC5), (1, 2, tag.val), (3, 1, code)])
    ∧ (∀ status code, (status, code) ∈ [(Status.ok, 0), (.badTable, 1), (.badIndex, 2), (.badValue, 3),
          (.readOnly, 4), (.conflict, 5), (.state, 6), (.tooSoon, 7), (.full, 8)] →
        ∀ (id : BitVec 16) (data : ReplyData), 8 * (replyItems data).length < 65536 →
        Layout (layoutF (.adminReply id status data)) (6 + 8 * (replyItems data).length)
          ([(0, 1, 0x83), (1, 2, id.toNat), (3, 1, code), (4, 2, 8 * (replyItems data).length)]
            ++ (replyItems data).mapIdx fun k x => (6 + 8 * k, 8, x.toNat)))
    ∧ (∀ (l : LaneId) (b : BlockAddr) (index attempt size : Nat) (es : List Entry),
        index < 2048 → attempt ≤ 3 → size ≤ 48 →
        Layout (layoutB (.program l b index attempt size es)) (10 + 16 * es.length)
          ([(0, 1, 0xC1), (1, 1, l.val), (2, 4, b.toNat), (6, 2, index), (8, 1, attempt), (9, 1, size)]
            ++ (es.mapIdx fun k e => match e with
              | .pad => [(10 + 16 * k, 16, 1)]
              | .sector x => [(10 + 16 * k, 2, match x.tag with | .front _ => 0 | .reloc _ => 2),
                  (12 + 16 * k, 2, x.stream.val), (14 + 16 * k, 6, x.lba.toNat),
                  (20 + 16 * k, 4, x.handle.toNat), (24 + 16 * k, 2, 0)]).flatten))
    ∧ (∀ (l : LaneId) (count : Nat), count ≤ 8 →
        Layout (layoutB (.want l count)) 3 [(0, 1, 0xC2), (1, 1, l.val), (2, 1, count)])
    ∧ (∀ why code, (why, code) ∈ [(GivebackReason.unused, 0), (.partlyUsed, 1), (.bad, 2), (.faulted, 3),
          (.refused, 4), (.duplicate, 5), (.full, 6), (.reset, 7)] →
        ∀ (l : LaneField) (b : BlockAddr) (index : Option Nat), (∀ i, index = some i → i < 2048) →
        Layout (layoutB (.giveback l b why index)) 9 [(0, 1, 0xC3), (1, 1, l.val), (2, 1, code),
          (3, 4, b.toNat), (7, 2, match index with | some i => i | none => 0)])
    ∧ layoutF .flushDone = [0x84] ∧ layoutB .holdAck = [0xC6] ∧ layoutB .holdClear = [0xC7]
    ∧ (∀ d : Stream, replyItems (.stream d) =
        [if d.admitted then 1 else 0, BitVec.ofNat 64 d.group.val, if d.track then 1 else 0,
          absentOr (d.pinned.map Fin.val), absentOr (d.relocClass.map Fin.val),
          BitVec.ofNat 64 d.current.val, BitVec.ofNat 64 d.dwell, BitVec.ofNat 64 d.rate,
          BitVec.ofNat 64 d.count, BitVec.ofNat 64 d.written.toNat])
    ∧ (∀ d : Group, replyItems (.group d) =
        ([0, 1, 2, 3].map fun c => absentOr ((d.laneMap.get c).map Fin.val))
          ++ [match d.fallback with | .colderFirst => 0 | .hotterFirst => 1, BitVec.ofNat 64 d.sealAge])
    ∧ (∀ (d : Settings) (w : Sweep),
        ((replyItems (.settings d w)).take 16 = [d.unitSize, d.unitsPerBlock, d.laneLimit, d.period, d.shift,
            d.t1, d.t2, d.t3, d.hysteresis, d.dwell, d.resultTimeout, d.faultResidency, d.refillMark, d.share,
            d.enables.toNat, d.latchEnables.toNat].map (BitVec.ofNat 64))
          ∧ (replyItems (.settings d w)).length = 21
          ∧ (replyItems (.settings d w))[17]? = some (BitVec.ofNat 64 w.position.val)
          ∧ (replyItems (.settings d w))[19]? = some (BitVec.ofNat 64 w.lost)
          ∧ (replyItems (.settings d w))[20]? = some (BitVec.ofNat 64 w.completed.toNat))
    ∧ ∀ d : TagRecord, replyItems (.tag d) = [if d.inUse then 1 else 0, BitVec.ofNat 64 d.remaining,
        if d.failed then 1 else 0, BitVec.ofNat 64 d.length, BitVec.ofNat 64 d.stream.val]

/-- Bytes that a port takes as a record are that record's layout, and no other: no bit of them is dropped, and the
record keeps the rules of form (R162, R173). -/
def Obligations.BytesReadWhole : Prop :=
  ∀ (link : Link) (bytes : List Byte) (r : InRecord), parseRecord link bytes = some r →
    layoutRecord r = bytes ∧ r.link = link ∧ r.wellFormed = true

/-! ## The laws of the device, kept by every step -/

/-- R163, and the counts of R10, R20, R50, R106 and R150: every step keeps the queues, the captures, FHOLD and the
counts within their bounds. -/
def Obligations.BoundsKept : Prop :=
  ∀ s t : State, s.QueueLaw → s.FholdLaw → s.CountLaw → step s = .next t →
    t.QueueLaw ∧ t.FholdLaw ∧ t.CountLaw

/-- R27 and R170: every step keeps the settings in their ranges with rising thresholds, and every rate, count and
dwell in its range. -/
def Obligations.SettingsAndHeatKept : Prop :=
  ∀ s t : State, s.settings.Lawful → s.HeatLaw → step s = .next t → t.settings.Lawful ∧ t.HeatLaw

/-- R38: every step keeps the law of the lane maps. -/
def Obligations.LaneMapKept : Prop :=
  ∀ s t : State, s.LaneMapLaw → step s = .next t → t.LaneMapLaw

/-- R71, R73, R89, R110 and R128: every step keeps the laws of the lanes, of their units and owners, and each
next unit index below the units of a block, and 0 while no block is current (R108; log entry 20). -/
def Obligations.LanesKept : Prop :=
  ∀ s t : State, s.settings.Lawful → s.LaneMapLaw → s.LaneLaw → (∀ l, (s.lanes.get l).ReadyLaw) →
    s.OwnerLaw → s.IndexLaw → step s = .next t →
    t.LaneLaw ∧ (∀ l, (t.lanes.get l).ReadyLaw) ∧ t.OwnerLaw ∧ t.IndexLaw

/-- R109: every step keeps each block held at most once, and every reserve stack at 8 or fewer. -/
def Obligations.BlocksKept : Prop :=
  ∀ s t : State, s.BlockLaw → step s = .next t → t.BlockLaw

/-- R63: every step keeps each tag in use exactly while lanes hold its entries, and counts them. -/
def Obligations.TagsKept : Prop :=
  ∀ s t : State, s.TagLaw → step s = .next t → t.TagLaw

/-- R145: every step keeps the lanes empty of work while the mode is FLUSHED. -/
def Obligations.FlushedKept : Prop :=
  ∀ s t : State, s.FlushedLaw → step s = .next t → t.FlushedLaw

/-- R86 and R166: after every step a transmitter is idle only while it has nothing to send. -/
def Obligations.TransmittersKept : Prop :=
  ∀ s t : State, s.TransmitLaw → step s = .next t → t.TransmitLaw

/-- R154: after every step each live level source with both enables is latched. -/
def Obligations.LatchesKept : Prop :=
  ∀ s t : State, s.LatchLaw → step s = .next t → t.LatchLaw

/-- The state after reset meets every law. -/
def Obligations.ResetIsLawful : Prop :=
  State.reset.QueueLaw ∧ State.reset.FholdLaw ∧ State.reset.CountLaw ∧ State.reset.settings.Lawful
    ∧ State.reset.HeatLaw ∧ State.reset.LaneMapLaw ∧ State.reset.LaneLaw
    ∧ (∀ l, (State.reset.lanes.get l).ReadyLaw) ∧ State.reset.OwnerLaw ∧ State.reset.IndexLaw
    ∧ State.reset.BlockLaw ∧ State.reset.TagLaw ∧ State.reset.FlushedLaw ∧ State.reset.TransmitLaw
    ∧ State.reset.LatchLaw
end

