-- ==== Sys2Proof/Laws/Table.lean ====
section
/-! SUPPORT. The small lemmas of a fixed-size table: what get answers after replicate, set and map. -/

namespace Sys2Proof.Table
variable {α : Type} {n : Nat}

@[simp] theorem get_replicate (a : α) (i : Fin n) : (Table.replicate n a).get i = a := by
  simp [Table.replicate, Table.get]

@[simp] theorem get_set_self (t : Table α n) (i : Fin n) (a : α) : (t.set i a).get i = a := by
  simp [Table.set, Table.get]

theorem get_set_ne (t : Table α n) {i j : Fin n} (a : α) (h : j ≠ i) : (t.set i a).get j = t.get j := by
  have hv : i.val ≠ j.val := fun e => h (Fin.ext e.symm)
  simp [Table.set, Table.get, hv]

theorem get_set (t : Table α n) (i j : Fin n) (a : α) :
    (t.set i a).get j = if j = i then a else t.get j := by
  by_cases h : j = i
  · subst h; simp
  · simp [h, get_set_ne t a h]

@[simp] theorem get_map (t : Table α n) (f : α → α) (i : Fin n) : (t.map f).get i = f (t.get i) := by
  simp [Table.map, Table.get]

/-- A table is its records. -/
theorem ext_get {t u : Table α n} (h : ∀ i, t.get i = u.get i) : t = u := by
  obtain ⟨xs, hx⟩ := t
  obtain ⟨ys, hy⟩ := u
  have : xs = ys := by
    refine List.ext_getElem (by omega) fun k h1 h2 => ?_
    exact h ⟨k, by omega⟩
  subst this; rfl

@[simp] theorem set_get_self (t : Table α n) (i : Fin n) : t.set i (t.get i) = t := by
  refine ext_get fun j => ?_
  rw [get_set]; split
  · next h => rw [h]
  · rfl

@[simp] theorem set_set (t : Table α n) (i : Fin n) (a b : α) : (t.set i a).set i b = t.set i b := by
  refine ext_get fun j => ?_
  simp only [get_set]; split <;> rfl

/-- Every record of a table is one of its items, and the other way round. -/
theorem mem_items {t : Table α n} {a : α} : a ∈ t.items ↔ ∃ i, t.get i = a := by
  constructor
  · intro h
    obtain ⟨k, hk, rfl⟩ := List.getElem_of_mem h
    exact ⟨⟨k, by rw [← t.size]; exact hk⟩, rfl⟩
  · rintro ⟨i, rfl⟩
    exact List.getElem_mem _

theorem any_items {t : Table α n} {p : α → Bool} : t.items.any p = true ↔ ∃ i, p (t.get i) = true := by
  simp only [List.any_eq_true, mem_items]
  constructor
  · rintro ⟨_, ⟨i, rfl⟩, h⟩; exact ⟨i, h⟩
  · rintro ⟨i, h⟩; exact ⟨_, ⟨i, rfl⟩, h⟩

theorem any_items_false {t : Table α n} {p : α → Bool} :
    t.items.any p = false ↔ ∀ i, p (t.get i) = false := by
  rw [← Bool.not_eq_true, any_items]; simp

end Sys2Proof.Table
end

