-- ==== Sys2Proof/Laws/State.lean ====
section
/-! SUPPORT. What each named update of the state leaves unchanged: one lemma per field per update. -/

namespace Sys2Proof.Machine.State

variable (s : State)

/-! ## setLane -/

@[simp] theorem setLane_streams (l : LaneId) (x : Lane) : (s.setLane l x).streams = s.streams := rfl
@[simp] theorem setLane_classifierRun (l : LaneId) (x : Lane) : (s.setLane l x).classifierRun = s.classifierRun := rfl
@[simp] theorem setLane_sample (l : LaneId) (x : Lane) : (s.setLane l x).sample = s.sample := rfl
@[simp] theorem setLane_sweep (l : LaneId) (x : Lane) : (s.setLane l x).sweep = s.sweep := rfl
@[simp] theorem setLane_groups (l : LaneId) (x : Lane) : (s.setLane l x).groups = s.groups := rfl
@[simp] theorem setLane_inHand (l : LaneId) (x : Lane) : (s.setLane l x).inHand = s.inHand := rfl
@[simp] theorem setLane_shareCount (l : LaneId) (x : Lane) : (s.setLane l x).shareCount = s.shareCount := rfl
@[simp] theorem setLane_frontTags (l : LaneId) (x : Lane) : (s.setLane l x).frontTags = s.frontTags := rfl
@[simp] theorem setLane_relocTags (l : LaneId) (x : Lane) : (s.setLane l x).relocTags = s.relocTags := rfl
@[simp] theorem setLane_settings (l : LaneId) (x : Lane) : (s.setLane l x).settings = s.settings := rfl
@[simp] theorem setLane_frontQueue (l : LaneId) (x : Lane) : (s.setLane l x).frontQueue = s.frontQueue := rfl
@[simp] theorem setLane_fhold (l : LaneId) (x : Lane) : (s.setLane l x).fhold = s.fhold := rfl
@[simp] theorem setLane_relocQueue (l : LaneId) (x : Lane) : (s.setLane l x).relocQueue = s.relocQueue := rfl
@[simp] theorem setLane_fLink (l : LaneId) (x : Lane) : (s.setLane l x).fLink = s.fLink := rfl
@[simp] theorem setLane_bLink (l : LaneId) (x : Lane) : (s.setLane l x).bLink = s.bLink := rfl
@[simp] theorem setLane_hold (l : LaneId) (x : Lane) : (s.setLane l x).hold = s.hold := rfl
@[simp] theorem setLane_mode (l : LaneId) (x : Lane) : (s.setLane l x).mode = s.mode := rfl
@[simp] theorem setLane_warning (l : LaneId) (x : Lane) : (s.setLane l x).warning = s.warning := rfl
@[simp] theorem setLane_holdupPin (l : LaneId) (x : Lane) : (s.setLane l x).holdupPin = s.holdupPin := rfl
@[simp] theorem setLane_inReset (l : LaneId) (x : Lane) : (s.setLane l x).inReset = s.inReset := rfl
@[simp] theorem setLane_lastReset (l : LaneId) (x : Lane) : (s.setLane l x).lastReset = s.lastReset := rfl
@[simp] theorem setLane_softResets (l : LaneId) (x : Lane) : (s.setLane l x).softResets = s.softResets := rfl
@[simp] theorem setLane_latches (l : LaneId) (x : Lane) : (s.setLane l x).latches = s.latches := rfl
@[simp] theorem setLane_captures (l : LaneId) (x : Lane) : (s.setLane l x).captures = s.captures := rfl
@[simp] theorem setLane_captureLost (l : LaneId) (x : Lane) : (s.setLane l x).captureLost = s.captureLost := rfl
@[simp] theorem setLane_time (l : LaneId) (x : Lane) : (s.setLane l x).time = s.time := rfl
@[simp] theorem setLane_pending (l : LaneId) (x : Lane) : (s.setLane l x).pending = s.pending := rfl
@[simp] theorem setLane_draws (l : LaneId) (x : Lane) : (s.setLane l x).draws = s.draws := rfl

/-! ## setStream -/

@[simp] theorem setStream_classifierRun (i : StreamId) (x : Stream) : (s.setStream i x).classifierRun = s.classifierRun := rfl
@[simp] theorem setStream_sample (i : StreamId) (x : Stream) : (s.setStream i x).sample = s.sample := rfl
@[simp] theorem setStream_sweep (i : StreamId) (x : Stream) : (s.setStream i x).sweep = s.sweep := rfl
@[simp] theorem setStream_groups (i : StreamId) (x : Stream) : (s.setStream i x).groups = s.groups := rfl
@[simp] theorem setStream_inHand (i : StreamId) (x : Stream) : (s.setStream i x).inHand = s.inHand := rfl
@[simp] theorem setStream_shareCount (i : StreamId) (x : Stream) : (s.setStream i x).shareCount = s.shareCount := rfl
@[simp] theorem setStream_frontTags (i : StreamId) (x : Stream) : (s.setStream i x).frontTags = s.frontTags := rfl
@[simp] theorem setStream_relocTags (i : StreamId) (x : Stream) : (s.setStream i x).relocTags = s.relocTags := rfl
@[simp] theorem setStream_lanes (i : StreamId) (x : Stream) : (s.setStream i x).lanes = s.lanes := rfl
@[simp] theorem setStream_settings (i : StreamId) (x : Stream) : (s.setStream i x).settings = s.settings := rfl
@[simp] theorem setStream_frontQueue (i : StreamId) (x : Stream) : (s.setStream i x).frontQueue = s.frontQueue := rfl
@[simp] theorem setStream_fhold (i : StreamId) (x : Stream) : (s.setStream i x).fhold = s.fhold := rfl
@[simp] theorem setStream_relocQueue (i : StreamId) (x : Stream) : (s.setStream i x).relocQueue = s.relocQueue := rfl
@[simp] theorem setStream_fLink (i : StreamId) (x : Stream) : (s.setStream i x).fLink = s.fLink := rfl
@[simp] theorem setStream_bLink (i : StreamId) (x : Stream) : (s.setStream i x).bLink = s.bLink := rfl
@[simp] theorem setStream_hold (i : StreamId) (x : Stream) : (s.setStream i x).hold = s.hold := rfl
@[simp] theorem setStream_mode (i : StreamId) (x : Stream) : (s.setStream i x).mode = s.mode := rfl
@[simp] theorem setStream_warning (i : StreamId) (x : Stream) : (s.setStream i x).warning = s.warning := rfl
@[simp] theorem setStream_holdupPin (i : StreamId) (x : Stream) : (s.setStream i x).holdupPin = s.holdupPin := rfl
@[simp] theorem setStream_inReset (i : StreamId) (x : Stream) : (s.setStream i x).inReset = s.inReset := rfl
@[simp] theorem setStream_lastReset (i : StreamId) (x : Stream) : (s.setStream i x).lastReset = s.lastReset := rfl
@[simp] theorem setStream_softResets (i : StreamId) (x : Stream) : (s.setStream i x).softResets = s.softResets := rfl
@[simp] theorem setStream_latches (i : StreamId) (x : Stream) : (s.setStream i x).latches = s.latches := rfl
@[simp] theorem setStream_captures (i : StreamId) (x : Stream) : (s.setStream i x).captures = s.captures := rfl
@[simp] theorem setStream_captureLost (i : StreamId) (x : Stream) : (s.setStream i x).captureLost = s.captureLost := rfl
@[simp] theorem setStream_time (i : StreamId) (x : Stream) : (s.setStream i x).time = s.time := rfl
@[simp] theorem setStream_pending (i : StreamId) (x : Stream) : (s.setStream i x).pending = s.pending := rfl
@[simp] theorem setStream_draws (i : StreamId) (x : Stream) : (s.setStream i x).draws = s.draws := rfl

/-! ## setFrontTag -/

@[simp] theorem setFrontTag_streams (i : FrontTag) (x : TagRecord) : (s.setFrontTag i x).streams = s.streams := rfl
@[simp] theorem setFrontTag_classifierRun (i : FrontTag) (x : TagRecord) : (s.setFrontTag i x).classifierRun = s.classifierRun := rfl
@[simp] theorem setFrontTag_sample (i : FrontTag) (x : TagRecord) : (s.setFrontTag i x).sample = s.sample := rfl
@[simp] theorem setFrontTag_sweep (i : FrontTag) (x : TagRecord) : (s.setFrontTag i x).sweep = s.sweep := rfl
@[simp] theorem setFrontTag_groups (i : FrontTag) (x : TagRecord) : (s.setFrontTag i x).groups = s.groups := rfl
@[simp] theorem setFrontTag_inHand (i : FrontTag) (x : TagRecord) : (s.setFrontTag i x).inHand = s.inHand := rfl
@[simp] theorem setFrontTag_shareCount (i : FrontTag) (x : TagRecord) : (s.setFrontTag i x).shareCount = s.shareCount := rfl
@[simp] theorem setFrontTag_relocTags (i : FrontTag) (x : TagRecord) : (s.setFrontTag i x).relocTags = s.relocTags := rfl
@[simp] theorem setFrontTag_lanes (i : FrontTag) (x : TagRecord) : (s.setFrontTag i x).lanes = s.lanes := rfl
@[simp] theorem setFrontTag_settings (i : FrontTag) (x : TagRecord) : (s.setFrontTag i x).settings = s.settings := rfl
@[simp] theorem setFrontTag_frontQueue (i : FrontTag) (x : TagRecord) : (s.setFrontTag i x).frontQueue = s.frontQueue := rfl
@[simp] theorem setFrontTag_fhold (i : FrontTag) (x : TagRecord) : (s.setFrontTag i x).fhold = s.fhold := rfl
@[simp] theorem setFrontTag_relocQueue (i : FrontTag) (x : TagRecord) : (s.setFrontTag i x).relocQueue = s.relocQueue := rfl
@[simp] theorem setFrontTag_fLink (i : FrontTag) (x : TagRecord) : (s.setFrontTag i x).fLink = s.fLink := rfl
@[simp] theorem setFrontTag_bLink (i : FrontTag) (x : TagRecord) : (s.setFrontTag i x).bLink = s.bLink := rfl
@[simp] theorem setFrontTag_hold (i : FrontTag) (x : TagRecord) : (s.setFrontTag i x).hold = s.hold := rfl
@[simp] theorem setFrontTag_mode (i : FrontTag) (x : TagRecord) : (s.setFrontTag i x).mode = s.mode := rfl
@[simp] theorem setFrontTag_warning (i : FrontTag) (x : TagRecord) : (s.setFrontTag i x).warning = s.warning := rfl
@[simp] theorem setFrontTag_holdupPin (i : FrontTag) (x : TagRecord) : (s.setFrontTag i x).holdupPin = s.holdupPin := rfl
@[simp] theorem setFrontTag_inReset (i : FrontTag) (x : TagRecord) : (s.setFrontTag i x).inReset = s.inReset := rfl
@[simp] theorem setFrontTag_lastReset (i : FrontTag) (x : TagRecord) : (s.setFrontTag i x).lastReset = s.lastReset := rfl
@[simp] theorem setFrontTag_softResets (i : FrontTag) (x : TagRecord) : (s.setFrontTag i x).softResets = s.softResets := rfl
@[simp] theorem setFrontTag_latches (i : FrontTag) (x : TagRecord) : (s.setFrontTag i x).latches = s.latches := rfl
@[simp] theorem setFrontTag_captures (i : FrontTag) (x : TagRecord) : (s.setFrontTag i x).captures = s.captures := rfl
@[simp] theorem setFrontTag_captureLost (i : FrontTag) (x : TagRecord) : (s.setFrontTag i x).captureLost = s.captureLost := rfl
@[simp] theorem setFrontTag_time (i : FrontTag) (x : TagRecord) : (s.setFrontTag i x).time = s.time := rfl
@[simp] theorem setFrontTag_pending (i : FrontTag) (x : TagRecord) : (s.setFrontTag i x).pending = s.pending := rfl
@[simp] theorem setFrontTag_draws (i : FrontTag) (x : TagRecord) : (s.setFrontTag i x).draws = s.draws := rfl

/-! ## setRelocTag -/

@[simp] theorem setRelocTag_streams (i : RelocTag) (x : TagRecord) : (s.setRelocTag i x).streams = s.streams := rfl
@[simp] theorem setRelocTag_classifierRun (i : RelocTag) (x : TagRecord) : (s.setRelocTag i x).classifierRun = s.classifierRun := rfl
@[simp] theorem setRelocTag_sample (i : RelocTag) (x : TagRecord) : (s.setRelocTag i x).sample = s.sample := rfl
@[simp] theorem setRelocTag_sweep (i : RelocTag) (x : TagRecord) : (s.setRelocTag i x).sweep = s.sweep := rfl
@[simp] theorem setRelocTag_groups (i : RelocTag) (x : TagRecord) : (s.setRelocTag i x).groups = s.groups := rfl
@[simp] theorem setRelocTag_inHand (i : RelocTag) (x : TagRecord) : (s.setRelocTag i x).inHand = s.inHand := rfl
@[simp] theorem setRelocTag_shareCount (i : RelocTag) (x : TagRecord) : (s.setRelocTag i x).shareCount = s.shareCount := rfl
@[simp] theorem setRelocTag_frontTags (i : RelocTag) (x : TagRecord) : (s.setRelocTag i x).frontTags = s.frontTags := rfl
@[simp] theorem setRelocTag_lanes (i : RelocTag) (x : TagRecord) : (s.setRelocTag i x).lanes = s.lanes := rfl
@[simp] theorem setRelocTag_settings (i : RelocTag) (x : TagRecord) : (s.setRelocTag i x).settings = s.settings := rfl
@[simp] theorem setRelocTag_frontQueue (i : RelocTag) (x : TagRecord) : (s.setRelocTag i x).frontQueue = s.frontQueue := rfl
@[simp] theorem setRelocTag_fhold (i : RelocTag) (x : TagRecord) : (s.setRelocTag i x).fhold = s.fhold := rfl
@[simp] theorem setRelocTag_relocQueue (i : RelocTag) (x : TagRecord) : (s.setRelocTag i x).relocQueue = s.relocQueue := rfl
@[simp] theorem setRelocTag_fLink (i : RelocTag) (x : TagRecord) : (s.setRelocTag i x).fLink = s.fLink := rfl
@[simp] theorem setRelocTag_bLink (i : RelocTag) (x : TagRecord) : (s.setRelocTag i x).bLink = s.bLink := rfl
@[simp] theorem setRelocTag_hold (i : RelocTag) (x : TagRecord) : (s.setRelocTag i x).hold = s.hold := rfl
@[simp] theorem setRelocTag_mode (i : RelocTag) (x : TagRecord) : (s.setRelocTag i x).mode = s.mode := rfl
@[simp] theorem setRelocTag_warning (i : RelocTag) (x : TagRecord) : (s.setRelocTag i x).warning = s.warning := rfl
@[simp] theorem setRelocTag_holdupPin (i : RelocTag) (x : TagRecord) : (s.setRelocTag i x).holdupPin = s.holdupPin := rfl
@[simp] theorem setRelocTag_inReset (i : RelocTag) (x : TagRecord) : (s.setRelocTag i x).inReset = s.inReset := rfl
@[simp] theorem setRelocTag_lastReset (i : RelocTag) (x : TagRecord) : (s.setRelocTag i x).lastReset = s.lastReset := rfl
@[simp] theorem setRelocTag_softResets (i : RelocTag) (x : TagRecord) : (s.setRelocTag i x).softResets = s.softResets := rfl
@[simp] theorem setRelocTag_latches (i : RelocTag) (x : TagRecord) : (s.setRelocTag i x).latches = s.latches := rfl
@[simp] theorem setRelocTag_captures (i : RelocTag) (x : TagRecord) : (s.setRelocTag i x).captures = s.captures := rfl
@[simp] theorem setRelocTag_captureLost (i : RelocTag) (x : TagRecord) : (s.setRelocTag i x).captureLost = s.captureLost := rfl
@[simp] theorem setRelocTag_time (i : RelocTag) (x : TagRecord) : (s.setRelocTag i x).time = s.time := rfl
@[simp] theorem setRelocTag_pending (i : RelocTag) (x : TagRecord) : (s.setRelocTag i x).pending = s.pending := rfl
@[simp] theorem setRelocTag_draws (i : RelocTag) (x : TagRecord) : (s.setRelocTag i x).draws = s.draws := rfl

/-! ## createF -/

@[simp] theorem createF_streams (r : FRecord) : (s.createF r).streams = s.streams := rfl
@[simp] theorem createF_classifierRun (r : FRecord) : (s.createF r).classifierRun = s.classifierRun := rfl
@[simp] theorem createF_sample (r : FRecord) : (s.createF r).sample = s.sample := rfl
@[simp] theorem createF_sweep (r : FRecord) : (s.createF r).sweep = s.sweep := rfl
@[simp] theorem createF_groups (r : FRecord) : (s.createF r).groups = s.groups := rfl
@[simp] theorem createF_inHand (r : FRecord) : (s.createF r).inHand = s.inHand := rfl
@[simp] theorem createF_shareCount (r : FRecord) : (s.createF r).shareCount = s.shareCount := rfl
@[simp] theorem createF_frontTags (r : FRecord) : (s.createF r).frontTags = s.frontTags := rfl
@[simp] theorem createF_relocTags (r : FRecord) : (s.createF r).relocTags = s.relocTags := rfl
@[simp] theorem createF_lanes (r : FRecord) : (s.createF r).lanes = s.lanes := rfl
@[simp] theorem createF_settings (r : FRecord) : (s.createF r).settings = s.settings := rfl
@[simp] theorem createF_frontQueue (r : FRecord) : (s.createF r).frontQueue = s.frontQueue := rfl
@[simp] theorem createF_fhold (r : FRecord) : (s.createF r).fhold = s.fhold := rfl
@[simp] theorem createF_relocQueue (r : FRecord) : (s.createF r).relocQueue = s.relocQueue := rfl
@[simp] theorem createF_bLink (r : FRecord) : (s.createF r).bLink = s.bLink := rfl
@[simp] theorem createF_hold (r : FRecord) : (s.createF r).hold = s.hold := rfl
@[simp] theorem createF_mode (r : FRecord) : (s.createF r).mode = s.mode := rfl
@[simp] theorem createF_warning (r : FRecord) : (s.createF r).warning = s.warning := rfl
@[simp] theorem createF_holdupPin (r : FRecord) : (s.createF r).holdupPin = s.holdupPin := rfl
@[simp] theorem createF_inReset (r : FRecord) : (s.createF r).inReset = s.inReset := rfl
@[simp] theorem createF_lastReset (r : FRecord) : (s.createF r).lastReset = s.lastReset := rfl
@[simp] theorem createF_softResets (r : FRecord) : (s.createF r).softResets = s.softResets := rfl
@[simp] theorem createF_latches (r : FRecord) : (s.createF r).latches = s.latches := rfl
@[simp] theorem createF_captures (r : FRecord) : (s.createF r).captures = s.captures := rfl
@[simp] theorem createF_captureLost (r : FRecord) : (s.createF r).captureLost = s.captureLost := rfl
@[simp] theorem createF_time (r : FRecord) : (s.createF r).time = s.time := rfl
@[simp] theorem createF_pending (r : FRecord) : (s.createF r).pending = s.pending := rfl
@[simp] theorem createF_draws (r : FRecord) : (s.createF r).draws = s.draws := rfl

/-! ## createB -/

@[simp] theorem createB_streams (r : BRecord) : (s.createB r).streams = s.streams := rfl
@[simp] theorem createB_classifierRun (r : BRecord) : (s.createB r).classifierRun = s.classifierRun := rfl
@[simp] theorem createB_sample (r : BRecord) : (s.createB r).sample = s.sample := rfl
@[simp] theorem createB_sweep (r : BRecord) : (s.createB r).sweep = s.sweep := rfl
@[simp] theorem createB_groups (r : BRecord) : (s.createB r).groups = s.groups := rfl
@[simp] theorem createB_inHand (r : BRecord) : (s.createB r).inHand = s.inHand := rfl
@[simp] theorem createB_shareCount (r : BRecord) : (s.createB r).shareCount = s.shareCount := rfl
@[simp] theorem createB_frontTags (r : BRecord) : (s.createB r).frontTags = s.frontTags := rfl
@[simp] theorem createB_relocTags (r : BRecord) : (s.createB r).relocTags = s.relocTags := rfl
@[simp] theorem createB_lanes (r : BRecord) : (s.createB r).lanes = s.lanes := rfl
@[simp] theorem createB_settings (r : BRecord) : (s.createB r).settings = s.settings := rfl
@[simp] theorem createB_frontQueue (r : BRecord) : (s.createB r).frontQueue = s.frontQueue := rfl
@[simp] theorem createB_fhold (r : BRecord) : (s.createB r).fhold = s.fhold := rfl
@[simp] theorem createB_relocQueue (r : BRecord) : (s.createB r).relocQueue = s.relocQueue := rfl
@[simp] theorem createB_fLink (r : BRecord) : (s.createB r).fLink = s.fLink := rfl
@[simp] theorem createB_hold (r : BRecord) : (s.createB r).hold = s.hold := rfl
@[simp] theorem createB_mode (r : BRecord) : (s.createB r).mode = s.mode := rfl
@[simp] theorem createB_warning (r : BRecord) : (s.createB r).warning = s.warning := rfl
@[simp] theorem createB_holdupPin (r : BRecord) : (s.createB r).holdupPin = s.holdupPin := rfl
@[simp] theorem createB_inReset (r : BRecord) : (s.createB r).inReset = s.inReset := rfl
@[simp] theorem createB_lastReset (r : BRecord) : (s.createB r).lastReset = s.lastReset := rfl
@[simp] theorem createB_softResets (r : BRecord) : (s.createB r).softResets = s.softResets := rfl
@[simp] theorem createB_latches (r : BRecord) : (s.createB r).latches = s.latches := rfl
@[simp] theorem createB_captures (r : BRecord) : (s.createB r).captures = s.captures := rfl
@[simp] theorem createB_captureLost (r : BRecord) : (s.createB r).captureLost = s.captureLost := rfl
@[simp] theorem createB_time (r : BRecord) : (s.createB r).time = s.time := rfl
@[simp] theorem createB_pending (r : BRecord) : (s.createB r).pending = s.pending := rfl
@[simp] theorem createB_draws (r : BRecord) : (s.createB r).draws = s.draws := rfl

/-! ## reply -/

@[simp] theorem reply_streams (a : Admin) (st : Status) (d : ReplyData) : (s.reply a st d).streams = s.streams := rfl
@[simp] theorem reply_classifierRun (a : Admin) (st : Status) (d : ReplyData) : (s.reply a st d).classifierRun = s.classifierRun := rfl
@[simp] theorem reply_sample (a : Admin) (st : Status) (d : ReplyData) : (s.reply a st d).sample = s.sample := rfl
@[simp] theorem reply_sweep (a : Admin) (st : Status) (d : ReplyData) : (s.reply a st d).sweep = s.sweep := rfl
@[simp] theorem reply_groups (a : Admin) (st : Status) (d : ReplyData) : (s.reply a st d).groups = s.groups := rfl
@[simp] theorem reply_inHand (a : Admin) (st : Status) (d : ReplyData) : (s.reply a st d).inHand = s.inHand := rfl
@[simp] theorem reply_shareCount (a : Admin) (st : Status) (d : ReplyData) : (s.reply a st d).shareCount = s.shareCount := rfl
@[simp] theorem reply_frontTags (a : Admin) (st : Status) (d : ReplyData) : (s.reply a st d).frontTags = s.frontTags := rfl
@[simp] theorem reply_relocTags (a : Admin) (st : Status) (d : ReplyData) : (s.reply a st d).relocTags = s.relocTags := rfl
@[simp] theorem reply_lanes (a : Admin) (st : Status) (d : ReplyData) : (s.reply a st d).lanes = s.lanes := rfl
@[simp] theorem reply_settings (a : Admin) (st : Status) (d : ReplyData) : (s.reply a st d).settings = s.settings := rfl
@[simp] theorem reply_frontQueue (a : Admin) (st : Status) (d : ReplyData) : (s.reply a st d).frontQueue = s.frontQueue := rfl
@[simp] theorem reply_fhold (a : Admin) (st : Status) (d : ReplyData) : (s.reply a st d).fhold = s.fhold := rfl
@[simp] theorem reply_relocQueue (a : Admin) (st : Status) (d : ReplyData) : (s.reply a st d).relocQueue = s.relocQueue := rfl
@[simp] theorem reply_bLink (a : Admin) (st : Status) (d : ReplyData) : (s.reply a st d).bLink = s.bLink := rfl
@[simp] theorem reply_hold (a : Admin) (st : Status) (d : ReplyData) : (s.reply a st d).hold = s.hold := rfl
@[simp] theorem reply_mode (a : Admin) (st : Status) (d : ReplyData) : (s.reply a st d).mode = s.mode := rfl
@[simp] theorem reply_warning (a : Admin) (st : Status) (d : ReplyData) : (s.reply a st d).warning = s.warning := rfl
@[simp] theorem reply_holdupPin (a : Admin) (st : Status) (d : ReplyData) : (s.reply a st d).holdupPin = s.holdupPin := rfl
@[simp] theorem reply_inReset (a : Admin) (st : Status) (d : ReplyData) : (s.reply a st d).inReset = s.inReset := rfl
@[simp] theorem reply_lastReset (a : Admin) (st : Status) (d : ReplyData) : (s.reply a st d).lastReset = s.lastReset := rfl
@[simp] theorem reply_softResets (a : Admin) (st : Status) (d : ReplyData) : (s.reply a st d).softResets = s.softResets := rfl
@[simp] theorem reply_latches (a : Admin) (st : Status) (d : ReplyData) : (s.reply a st d).latches = s.latches := rfl
@[simp] theorem reply_captures (a : Admin) (st : Status) (d : ReplyData) : (s.reply a st d).captures = s.captures := rfl
@[simp] theorem reply_captureLost (a : Admin) (st : Status) (d : ReplyData) : (s.reply a st d).captureLost = s.captureLost := rfl
@[simp] theorem reply_time (a : Admin) (st : Status) (d : ReplyData) : (s.reply a st d).time = s.time := rfl
@[simp] theorem reply_pending (a : Admin) (st : Status) (d : ReplyData) : (s.reply a st d).pending = s.pending := rfl
@[simp] theorem reply_draws (a : Admin) (st : Status) (d : ReplyData) : (s.reply a st d).draws = s.draws := rfl

/-! ## giveback -/

@[simp] theorem giveback_streams (l : LaneField) (b : BlockAddr) (r : GivebackReason) (i : Option Nat) : (s.giveback l b r i).streams = s.streams := rfl
@[simp] theorem giveback_classifierRun (l : LaneField) (b : BlockAddr) (r : GivebackReason) (i : Option Nat) : (s.giveback l b r i).classifierRun = s.classifierRun := rfl
@[simp] theorem giveback_sample (l : LaneField) (b : BlockAddr) (r : GivebackReason) (i : Option Nat) : (s.giveback l b r i).sample = s.sample := rfl
@[simp] theorem giveback_sweep (l : LaneField) (b : BlockAddr) (r : GivebackReason) (i : Option Nat) : (s.giveback l b r i).sweep = s.sweep := rfl
@[simp] theorem giveback_groups (l : LaneField) (b : BlockAddr) (r : GivebackReason) (i : Option Nat) : (s.giveback l b r i).groups = s.groups := rfl
@[simp] theorem giveback_inHand (l : LaneField) (b : BlockAddr) (r : GivebackReason) (i : Option Nat) : (s.giveback l b r i).inHand = s.inHand := rfl
@[simp] theorem giveback_shareCount (l : LaneField) (b : BlockAddr) (r : GivebackReason) (i : Option Nat) : (s.giveback l b r i).shareCount = s.shareCount := rfl
@[simp] theorem giveback_frontTags (l : LaneField) (b : BlockAddr) (r : GivebackReason) (i : Option Nat) : (s.giveback l b r i).frontTags = s.frontTags := rfl
@[simp] theorem giveback_relocTags (l : LaneField) (b : BlockAddr) (r : GivebackReason) (i : Option Nat) : (s.giveback l b r i).relocTags = s.relocTags := rfl
@[simp] theorem giveback_lanes (l : LaneField) (b : BlockAddr) (r : GivebackReason) (i : Option Nat) : (s.giveback l b r i).lanes = s.lanes := rfl
@[simp] theorem giveback_settings (l : LaneField) (b : BlockAddr) (r : GivebackReason) (i : Option Nat) : (s.giveback l b r i).settings = s.settings := rfl
@[simp] theorem giveback_frontQueue (l : LaneField) (b : BlockAddr) (r : GivebackReason) (i : Option Nat) : (s.giveback l b r i).frontQueue = s.frontQueue := rfl
@[simp] theorem giveback_fhold (l : LaneField) (b : BlockAddr) (r : GivebackReason) (i : Option Nat) : (s.giveback l b r i).fhold = s.fhold := rfl
@[simp] theorem giveback_relocQueue (l : LaneField) (b : BlockAddr) (r : GivebackReason) (i : Option Nat) : (s.giveback l b r i).relocQueue = s.relocQueue := rfl
@[simp] theorem giveback_fLink (l : LaneField) (b : BlockAddr) (r : GivebackReason) (i : Option Nat) : (s.giveback l b r i).fLink = s.fLink := rfl
@[simp] theorem giveback_hold (l : LaneField) (b : BlockAddr) (r : GivebackReason) (i : Option Nat) : (s.giveback l b r i).hold = s.hold := rfl
@[simp] theorem giveback_mode (l : LaneField) (b : BlockAddr) (r : GivebackReason) (i : Option Nat) : (s.giveback l b r i).mode = s.mode := rfl
@[simp] theorem giveback_warning (l : LaneField) (b : BlockAddr) (r : GivebackReason) (i : Option Nat) : (s.giveback l b r i).warning = s.warning := rfl
@[simp] theorem giveback_holdupPin (l : LaneField) (b : BlockAddr) (r : GivebackReason) (i : Option Nat) : (s.giveback l b r i).holdupPin = s.holdupPin := rfl
@[simp] theorem giveback_inReset (l : LaneField) (b : BlockAddr) (r : GivebackReason) (i : Option Nat) : (s.giveback l b r i).inReset = s.inReset := rfl
@[simp] theorem giveback_lastReset (l : LaneField) (b : BlockAddr) (r : GivebackReason) (i : Option Nat) : (s.giveback l b r i).lastReset = s.lastReset := rfl
@[simp] theorem giveback_softResets (l : LaneField) (b : BlockAddr) (r : GivebackReason) (i : Option Nat) : (s.giveback l b r i).softResets = s.softResets := rfl
@[simp] theorem giveback_latches (l : LaneField) (b : BlockAddr) (r : GivebackReason) (i : Option Nat) : (s.giveback l b r i).latches = s.latches := rfl
@[simp] theorem giveback_captures (l : LaneField) (b : BlockAddr) (r : GivebackReason) (i : Option Nat) : (s.giveback l b r i).captures = s.captures := rfl
@[simp] theorem giveback_captureLost (l : LaneField) (b : BlockAddr) (r : GivebackReason) (i : Option Nat) : (s.giveback l b r i).captureLost = s.captureLost := rfl
@[simp] theorem giveback_time (l : LaneField) (b : BlockAddr) (r : GivebackReason) (i : Option Nat) : (s.giveback l b r i).time = s.time := rfl
@[simp] theorem giveback_pending (l : LaneField) (b : BlockAddr) (r : GivebackReason) (i : Option Nat) : (s.giveback l b r i).pending = s.pending := rfl
@[simp] theorem giveback_draws (l : LaneField) (b : BlockAddr) (r : GivebackReason) (i : Option Nat) : (s.giveback l b r i).draws = s.draws := rfl

/-! ## raise -/

@[simp] theorem raise_streams (x : Source) : (s.raise x).streams = s.streams := rfl
@[simp] theorem raise_classifierRun (x : Source) : (s.raise x).classifierRun = s.classifierRun := rfl
@[simp] theorem raise_sample (x : Source) : (s.raise x).sample = s.sample := rfl
@[simp] theorem raise_sweep (x : Source) : (s.raise x).sweep = s.sweep := rfl
@[simp] theorem raise_groups (x : Source) : (s.raise x).groups = s.groups := rfl
@[simp] theorem raise_inHand (x : Source) : (s.raise x).inHand = s.inHand := rfl
@[simp] theorem raise_shareCount (x : Source) : (s.raise x).shareCount = s.shareCount := rfl
@[simp] theorem raise_frontTags (x : Source) : (s.raise x).frontTags = s.frontTags := rfl
@[simp] theorem raise_relocTags (x : Source) : (s.raise x).relocTags = s.relocTags := rfl
@[simp] theorem raise_lanes (x : Source) : (s.raise x).lanes = s.lanes := rfl
@[simp] theorem raise_settings (x : Source) : (s.raise x).settings = s.settings := rfl
@[simp] theorem raise_frontQueue (x : Source) : (s.raise x).frontQueue = s.frontQueue := rfl
@[simp] theorem raise_fhold (x : Source) : (s.raise x).fhold = s.fhold := rfl
@[simp] theorem raise_relocQueue (x : Source) : (s.raise x).relocQueue = s.relocQueue := rfl
@[simp] theorem raise_fLink (x : Source) : (s.raise x).fLink = s.fLink := rfl
@[simp] theorem raise_bLink (x : Source) : (s.raise x).bLink = s.bLink := rfl
@[simp] theorem raise_hold (x : Source) : (s.raise x).hold = s.hold := rfl
@[simp] theorem raise_mode (x : Source) : (s.raise x).mode = s.mode := rfl
@[simp] theorem raise_warning (x : Source) : (s.raise x).warning = s.warning := rfl
@[simp] theorem raise_holdupPin (x : Source) : (s.raise x).holdupPin = s.holdupPin := rfl
@[simp] theorem raise_inReset (x : Source) : (s.raise x).inReset = s.inReset := rfl
@[simp] theorem raise_lastReset (x : Source) : (s.raise x).lastReset = s.lastReset := rfl
@[simp] theorem raise_softResets (x : Source) : (s.raise x).softResets = s.softResets := rfl
@[simp] theorem raise_captures (x : Source) : (s.raise x).captures = s.captures := rfl
@[simp] theorem raise_captureLost (x : Source) : (s.raise x).captureLost = s.captureLost := rfl
@[simp] theorem raise_time (x : Source) : (s.raise x).time = s.time := rfl
@[simp] theorem raise_pending (x : Source) : (s.raise x).pending = s.pending := rfl
@[simp] theorem raise_draws (x : Source) : (s.raise x).draws = s.draws := rfl

/-! ## latchLevels -/

@[simp] theorem latchLevels_streams : (s.latchLevels).streams = s.streams := rfl
@[simp] theorem latchLevels_classifierRun : (s.latchLevels).classifierRun = s.classifierRun := rfl
@[simp] theorem latchLevels_sample : (s.latchLevels).sample = s.sample := rfl
@[simp] theorem latchLevels_sweep : (s.latchLevels).sweep = s.sweep := rfl
@[simp] theorem latchLevels_groups : (s.latchLevels).groups = s.groups := rfl
@[simp] theorem latchLevels_inHand : (s.latchLevels).inHand = s.inHand := rfl
@[simp] theorem latchLevels_shareCount : (s.latchLevels).shareCount = s.shareCount := rfl
@[simp] theorem latchLevels_frontTags : (s.latchLevels).frontTags = s.frontTags := rfl
@[simp] theorem latchLevels_relocTags : (s.latchLevels).relocTags = s.relocTags := rfl
@[simp] theorem latchLevels_lanes : (s.latchLevels).lanes = s.lanes := rfl
@[simp] theorem latchLevels_settings : (s.latchLevels).settings = s.settings := rfl
@[simp] theorem latchLevels_frontQueue : (s.latchLevels).frontQueue = s.frontQueue := rfl
@[simp] theorem latchLevels_fhold : (s.latchLevels).fhold = s.fhold := rfl
@[simp] theorem latchLevels_relocQueue : (s.latchLevels).relocQueue = s.relocQueue := rfl
@[simp] theorem latchLevels_fLink : (s.latchLevels).fLink = s.fLink := rfl
@[simp] theorem latchLevels_bLink : (s.latchLevels).bLink = s.bLink := rfl
@[simp] theorem latchLevels_hold : (s.latchLevels).hold = s.hold := rfl
@[simp] theorem latchLevels_mode : (s.latchLevels).mode = s.mode := rfl
@[simp] theorem latchLevels_warning : (s.latchLevels).warning = s.warning := rfl
@[simp] theorem latchLevels_holdupPin : (s.latchLevels).holdupPin = s.holdupPin := rfl
@[simp] theorem latchLevels_inReset : (s.latchLevels).inReset = s.inReset := rfl
@[simp] theorem latchLevels_lastReset : (s.latchLevels).lastReset = s.lastReset := rfl
@[simp] theorem latchLevels_softResets : (s.latchLevels).softResets = s.softResets := rfl
@[simp] theorem latchLevels_captures : (s.latchLevels).captures = s.captures := rfl
@[simp] theorem latchLevels_captureLost : (s.latchLevels).captureLost = s.captureLost := rfl
@[simp] theorem latchLevels_time : (s.latchLevels).time = s.time := rfl
@[simp] theorem latchLevels_pending : (s.latchLevels).pending = s.pending := rfl
@[simp] theorem latchLevels_draws : (s.latchLevels).draws = s.draws := rfl

/-! ## takeFront -/

@[simp] theorem takeFront_streams : (s.takeFront).streams = s.streams := rfl
@[simp] theorem takeFront_classifierRun : (s.takeFront).classifierRun = s.classifierRun := rfl
@[simp] theorem takeFront_sample : (s.takeFront).sample = s.sample := rfl
@[simp] theorem takeFront_sweep : (s.takeFront).sweep = s.sweep := rfl
@[simp] theorem takeFront_groups : (s.takeFront).groups = s.groups := rfl
@[simp] theorem takeFront_inHand : (s.takeFront).inHand = s.inHand := rfl
@[simp] theorem takeFront_frontTags : (s.takeFront).frontTags = s.frontTags := rfl
@[simp] theorem takeFront_relocTags : (s.takeFront).relocTags = s.relocTags := rfl
@[simp] theorem takeFront_lanes : (s.takeFront).lanes = s.lanes := rfl
@[simp] theorem takeFront_settings : (s.takeFront).settings = s.settings := rfl
@[simp] theorem takeFront_relocQueue : (s.takeFront).relocQueue = s.relocQueue := rfl
@[simp] theorem takeFront_fLink : (s.takeFront).fLink = s.fLink := rfl
@[simp] theorem takeFront_bLink : (s.takeFront).bLink = s.bLink := rfl
@[simp] theorem takeFront_hold : (s.takeFront).hold = s.hold := rfl
@[simp] theorem takeFront_mode : (s.takeFront).mode = s.mode := rfl
@[simp] theorem takeFront_warning : (s.takeFront).warning = s.warning := rfl
@[simp] theorem takeFront_holdupPin : (s.takeFront).holdupPin = s.holdupPin := rfl
@[simp] theorem takeFront_inReset : (s.takeFront).inReset = s.inReset := rfl
@[simp] theorem takeFront_lastReset : (s.takeFront).lastReset = s.lastReset := rfl
@[simp] theorem takeFront_softResets : (s.takeFront).softResets = s.softResets := rfl
@[simp] theorem takeFront_latches : (s.takeFront).latches = s.latches := rfl
@[simp] theorem takeFront_captures : (s.takeFront).captures = s.captures := rfl
@[simp] theorem takeFront_captureLost : (s.takeFront).captureLost = s.captureLost := rfl
@[simp] theorem takeFront_time : (s.takeFront).time = s.time := rfl
@[simp] theorem takeFront_pending : (s.takeFront).pending = s.pending := rfl
@[simp] theorem takeFront_draws : (s.takeFront).draws = s.draws := rfl

/-! ## takeReloc -/

@[simp] theorem takeReloc_streams : (s.takeReloc).streams = s.streams := rfl
@[simp] theorem takeReloc_classifierRun : (s.takeReloc).classifierRun = s.classifierRun := rfl
@[simp] theorem takeReloc_sample : (s.takeReloc).sample = s.sample := rfl
@[simp] theorem takeReloc_sweep : (s.takeReloc).sweep = s.sweep := rfl
@[simp] theorem takeReloc_groups : (s.takeReloc).groups = s.groups := rfl
@[simp] theorem takeReloc_inHand : (s.takeReloc).inHand = s.inHand := rfl
@[simp] theorem takeReloc_frontTags : (s.takeReloc).frontTags = s.frontTags := rfl
@[simp] theorem takeReloc_relocTags : (s.takeReloc).relocTags = s.relocTags := rfl
@[simp] theorem takeReloc_lanes : (s.takeReloc).lanes = s.lanes := rfl
@[simp] theorem takeReloc_settings : (s.takeReloc).settings = s.settings := rfl
@[simp] theorem takeReloc_frontQueue : (s.takeReloc).frontQueue = s.frontQueue := rfl
@[simp] theorem takeReloc_fhold : (s.takeReloc).fhold = s.fhold := rfl
@[simp] theorem takeReloc_fLink : (s.takeReloc).fLink = s.fLink := rfl
@[simp] theorem takeReloc_bLink : (s.takeReloc).bLink = s.bLink := rfl
@[simp] theorem takeReloc_hold : (s.takeReloc).hold = s.hold := rfl
@[simp] theorem takeReloc_mode : (s.takeReloc).mode = s.mode := rfl
@[simp] theorem takeReloc_warning : (s.takeReloc).warning = s.warning := rfl
@[simp] theorem takeReloc_holdupPin : (s.takeReloc).holdupPin = s.holdupPin := rfl
@[simp] theorem takeReloc_inReset : (s.takeReloc).inReset = s.inReset := rfl
@[simp] theorem takeReloc_lastReset : (s.takeReloc).lastReset = s.lastReset := rfl
@[simp] theorem takeReloc_softResets : (s.takeReloc).softResets = s.softResets := rfl
@[simp] theorem takeReloc_latches : (s.takeReloc).latches = s.latches := rfl
@[simp] theorem takeReloc_captures : (s.takeReloc).captures = s.captures := rfl
@[simp] theorem takeReloc_captureLost : (s.takeReloc).captureLost = s.captureLost := rfl
@[simp] theorem takeReloc_time : (s.takeReloc).time = s.time := rfl
@[simp] theorem takeReloc_pending : (s.takeReloc).pending = s.pending := rfl
@[simp] theorem takeReloc_draws : (s.takeReloc).draws = s.draws := rfl

/-! ## countAccess -/

@[simp] theorem countAccess_streams : (s.countAccess).streams = s.streams := rfl
@[simp] theorem countAccess_sample : (s.countAccess).sample = s.sample := rfl
@[simp] theorem countAccess_sweep : (s.countAccess).sweep = s.sweep := rfl
@[simp] theorem countAccess_groups : (s.countAccess).groups = s.groups := rfl
@[simp] theorem countAccess_inHand : (s.countAccess).inHand = s.inHand := rfl
@[simp] theorem countAccess_shareCount : (s.countAccess).shareCount = s.shareCount := rfl
@[simp] theorem countAccess_frontTags : (s.countAccess).frontTags = s.frontTags := rfl
@[simp] theorem countAccess_relocTags : (s.countAccess).relocTags = s.relocTags := rfl
@[simp] theorem countAccess_lanes : (s.countAccess).lanes = s.lanes := rfl
@[simp] theorem countAccess_settings : (s.countAccess).settings = s.settings := rfl
@[simp] theorem countAccess_frontQueue : (s.countAccess).frontQueue = s.frontQueue := rfl
@[simp] theorem countAccess_fhold : (s.countAccess).fhold = s.fhold := rfl
@[simp] theorem countAccess_relocQueue : (s.countAccess).relocQueue = s.relocQueue := rfl
@[simp] theorem countAccess_fLink : (s.countAccess).fLink = s.fLink := rfl
@[simp] theorem countAccess_bLink : (s.countAccess).bLink = s.bLink := rfl
@[simp] theorem countAccess_hold : (s.countAccess).hold = s.hold := rfl
@[simp] theorem countAccess_mode : (s.countAccess).mode = s.mode := rfl
@[simp] theorem countAccess_warning : (s.countAccess).warning = s.warning := rfl
@[simp] theorem countAccess_holdupPin : (s.countAccess).holdupPin = s.holdupPin := rfl
@[simp] theorem countAccess_inReset : (s.countAccess).inReset = s.inReset := rfl
@[simp] theorem countAccess_lastReset : (s.countAccess).lastReset = s.lastReset := rfl
@[simp] theorem countAccess_softResets : (s.countAccess).softResets = s.softResets := rfl
@[simp] theorem countAccess_latches : (s.countAccess).latches = s.latches := rfl
@[simp] theorem countAccess_captures : (s.countAccess).captures = s.captures := rfl
@[simp] theorem countAccess_captureLost : (s.countAccess).captureLost = s.captureLost := rfl
@[simp] theorem countAccess_time : (s.countAccess).time = s.time := rfl
@[simp] theorem countAccess_pending : (s.countAccess).pending = s.pending := rfl
@[simp] theorem countAccess_draws : (s.countAccess).draws = s.draws := rfl

/-! ## clearMaps -/

@[simp] theorem clearMaps_streams (l : LaneId) : (s.clearMaps l).streams = s.streams := rfl
@[simp] theorem clearMaps_classifierRun (l : LaneId) : (s.clearMaps l).classifierRun = s.classifierRun := rfl
@[simp] theorem clearMaps_sample (l : LaneId) : (s.clearMaps l).sample = s.sample := rfl
@[simp] theorem clearMaps_sweep (l : LaneId) : (s.clearMaps l).sweep = s.sweep := rfl
@[simp] theorem clearMaps_inHand (l : LaneId) : (s.clearMaps l).inHand = s.inHand := rfl
@[simp] theorem clearMaps_shareCount (l : LaneId) : (s.clearMaps l).shareCount = s.shareCount := rfl
@[simp] theorem clearMaps_frontTags (l : LaneId) : (s.clearMaps l).frontTags = s.frontTags := rfl
@[simp] theorem clearMaps_relocTags (l : LaneId) : (s.clearMaps l).relocTags = s.relocTags := rfl
@[simp] theorem clearMaps_lanes (l : LaneId) : (s.clearMaps l).lanes = s.lanes := rfl
@[simp] theorem clearMaps_settings (l : LaneId) : (s.clearMaps l).settings = s.settings := rfl
@[simp] theorem clearMaps_frontQueue (l : LaneId) : (s.clearMaps l).frontQueue = s.frontQueue := rfl
@[simp] theorem clearMaps_fhold (l : LaneId) : (s.clearMaps l).fhold = s.fhold := rfl
@[simp] theorem clearMaps_relocQueue (l : LaneId) : (s.clearMaps l).relocQueue = s.relocQueue := rfl
@[simp] theorem clearMaps_fLink (l : LaneId) : (s.clearMaps l).fLink = s.fLink := rfl
@[simp] theorem clearMaps_bLink (l : LaneId) : (s.clearMaps l).bLink = s.bLink := rfl
@[simp] theorem clearMaps_hold (l : LaneId) : (s.clearMaps l).hold = s.hold := rfl
@[simp] theorem clearMaps_mode (l : LaneId) : (s.clearMaps l).mode = s.mode := rfl
@[simp] theorem clearMaps_warning (l : LaneId) : (s.clearMaps l).warning = s.warning := rfl
@[simp] theorem clearMaps_holdupPin (l : LaneId) : (s.clearMaps l).holdupPin = s.holdupPin := rfl
@[simp] theorem clearMaps_inReset (l : LaneId) : (s.clearMaps l).inReset = s.inReset := rfl
@[simp] theorem clearMaps_lastReset (l : LaneId) : (s.clearMaps l).lastReset = s.lastReset := rfl
@[simp] theorem clearMaps_softResets (l : LaneId) : (s.clearMaps l).softResets = s.softResets := rfl
@[simp] theorem clearMaps_latches (l : LaneId) : (s.clearMaps l).latches = s.latches := rfl
@[simp] theorem clearMaps_captures (l : LaneId) : (s.clearMaps l).captures = s.captures := rfl
@[simp] theorem clearMaps_captureLost (l : LaneId) : (s.clearMaps l).captureLost = s.captureLost := rfl
@[simp] theorem clearMaps_time (l : LaneId) : (s.clearMaps l).time = s.time := rfl
@[simp] theorem clearMaps_pending (l : LaneId) : (s.clearMaps l).pending = s.pending := rfl
@[simp] theorem clearMaps_draws (l : LaneId) : (s.clearMaps l).draws = s.draws := rfl

/-! ## The fields the updates change -/

@[simp] theorem setLane_lanes (l : LaneId) (x : Lane) : (s.setLane l x).lanes = s.lanes.set l x := rfl
@[simp] theorem setStream_streams (i : StreamId) (x : Stream) :
    (s.setStream i x).streams = s.streams.set i x := rfl
@[simp] theorem setFrontTag_frontTags (i : FrontTag) (x : TagRecord) :
    (s.setFrontTag i x).frontTags = s.frontTags.set i x := rfl
@[simp] theorem setRelocTag_relocTags (i : RelocTag) (x : TagRecord) :
    (s.setRelocTag i x).relocTags = s.relocTags.set i x := rfl
@[simp] theorem raise_latches (x : Source) :
    (s.raise x).latches = s.latches ||| (sourceBit x &&& s.latchable) := rfl
@[simp] theorem latchLevels_latches :
    s.latchLevels.latches = s.latches ||| (s.liveSet &&& s.latchable) := rfl
@[simp] theorem takeFront_frontQueue : s.takeFront.frontQueue = s.frontQueue.tail := rfl
@[simp] theorem takeFront_shareCount :
    s.takeFront.shareCount = min (s.shareCount + 1) Config.shareCountMax := rfl
@[simp] theorem takeFront_fhold :
    s.takeFront.fhold = fholdAfter s.fhold s.frontQueue.tail.length := rfl
@[simp] theorem takeReloc_relocQueue : s.takeReloc.relocQueue = s.relocQueue.tail := rfl
@[simp] theorem takeReloc_shareCount : s.takeReloc.shareCount = 0 := rfl
@[simp] theorem countAccess_classifierRun :
    s.countAccess.classifierRun = if s.visitWaits then s.classifierRun + 1 else s.classifierRun := rfl
@[simp] theorem clearMaps_groups (l : LaneId) :
    (s.clearMaps l).groups = s.groups.map (Group.clearLane l) := rfl
@[simp] theorem createF_fLink (r : FRecord) :
    (s.createF r).fLink = FLink.advance { s.fLink with list := s.fLink.list ++ [r] } := rfl
@[simp] theorem reply_fLink (a : Admin) (st : Status) (d : ReplyData) :
    (s.reply a st d).fLink = (s.createF (.adminReply a.id st d)).fLink := rfl
@[simp] theorem createB_bLink (r : BRecord) :
    (s.createB r).bLink = BLink.advance { s.bLink with control := s.bLink.control ++ [r] } := rfl
@[simp] theorem giveback_bLink (l : LaneField) (b : BlockAddr) (r : GivebackReason) (i : Option Nat) :
    (s.giveback l b r i).bLink = (s.createB (.giveback l b r i)).bLink := rfl

end Sys2Proof.Machine.State
end

