-- ==== Sys2Proof/Laws/Changes.lean ====
section
/-! SUPPORT. What each shared operation can change: one lemma that says it whole, and from it one lemma
for every field the operation leaves alone. -/

namespace Sys2Proof.Machine

variable (s : State)

/-! ## settleEntry -/

theorem settleEntry_changes (p : Bool) (e : Entry) : ∃ ft rt fl bl, settleEntry p s e = { s with frontTags := ft, relocTags := rt, fLink := fl, bLink := bl } := by
  unfold settleEntry
  cases e with
  | pad => exact ⟨_, _, _, _, rfl⟩
  | sector x =>
    dsimp only
    cases x.tag <;> dsimp only <;> split <;> (try split) <;> exact ⟨_, _, _, _, rfl⟩

@[simp] theorem settleEntry_frame (p : Bool) (e : Entry) :
    (settleEntry p s e).streams = s.streams ∧ (settleEntry p s e).classifierRun = s.classifierRun
      ∧ (settleEntry p s e).sample = s.sample ∧ (settleEntry p s e).sweep = s.sweep
      ∧ (settleEntry p s e).groups = s.groups ∧ (settleEntry p s e).inHand = s.inHand
      ∧ (settleEntry p s e).shareCount = s.shareCount ∧ (settleEntry p s e).lanes = s.lanes
      ∧ (settleEntry p s e).settings = s.settings ∧ (settleEntry p s e).frontQueue = s.frontQueue
      ∧ (settleEntry p s e).fhold = s.fhold ∧ (settleEntry p s e).relocQueue = s.relocQueue
      ∧ (settleEntry p s e).hold = s.hold ∧ (settleEntry p s e).mode = s.mode
      ∧ (settleEntry p s e).warning = s.warning ∧ (settleEntry p s e).holdupPin = s.holdupPin
      ∧ (settleEntry p s e).inReset = s.inReset ∧ (settleEntry p s e).lastReset = s.lastReset
      ∧ (settleEntry p s e).softResets = s.softResets ∧ (settleEntry p s e).latches = s.latches
      ∧ (settleEntry p s e).captures = s.captures ∧ (settleEntry p s e).captureLost = s.captureLost
      ∧ (settleEntry p s e).time = s.time ∧ (settleEntry p s e).pending = s.pending
      ∧ (settleEntry p s e).draws = s.draws := by
  obtain ⟨_, _, _, _, h⟩ := settleEntry_changes s p e
  simp only [h, and_self]


/-! ## settleEntries -/

theorem settleEntries_changes (p : Bool) (es : List Entry) : ∃ ft rt fl bl, settleEntries p es s = { s with frontTags := ft, relocTags := rt, fLink := fl, bLink := bl } := by
  induction es generalizing s with
  | nil => exact ⟨_, _, _, _, rfl⟩
  | cons e es ih =>
    obtain ⟨_, _, _, _, h1⟩ := settleEntry_changes s p e
    obtain ⟨_, _, _, _, h2⟩ := ih (settleEntry p s e)
    exact ⟨_, _, _, _, by rw [settleEntries, List.foldl_cons, ← settleEntries, h2, h1]⟩

@[simp] theorem settleEntries_frame (p : Bool) (es : List Entry) :
    (settleEntries p es s).streams = s.streams ∧ (settleEntries p es s).classifierRun = s.classifierRun
      ∧ (settleEntries p es s).sample = s.sample ∧ (settleEntries p es s).sweep = s.sweep
      ∧ (settleEntries p es s).groups = s.groups ∧ (settleEntries p es s).inHand = s.inHand
      ∧ (settleEntries p es s).shareCount = s.shareCount ∧ (settleEntries p es s).lanes = s.lanes
      ∧ (settleEntries p es s).settings = s.settings ∧ (settleEntries p es s).frontQueue = s.frontQueue
      ∧ (settleEntries p es s).fhold = s.fhold ∧ (settleEntries p es s).relocQueue = s.relocQueue
      ∧ (settleEntries p es s).hold = s.hold ∧ (settleEntries p es s).mode = s.mode
      ∧ (settleEntries p es s).warning = s.warning ∧ (settleEntries p es s).holdupPin = s.holdupPin
      ∧ (settleEntries p es s).inReset = s.inReset ∧ (settleEntries p es s).lastReset = s.lastReset
      ∧ (settleEntries p es s).softResets = s.softResets ∧ (settleEntries p es s).latches = s.latches
      ∧ (settleEntries p es s).captures = s.captures ∧ (settleEntries p es s).captureLost = s.captureLost
      ∧ (settleEntries p es s).time = s.time ∧ (settleEntries p es s).pending = s.pending
      ∧ (settleEntries p es s).draws = s.draws := by
  obtain ⟨_, _, _, _, h⟩ := settleEntries_changes s p es
  simp only [h, and_self]


/-! ## takeCapture -/

theorem takeCapture_changes (k : CaptureKind) (l : LaneId) (u : Issued) : ∃ cs cl, takeCapture k l u s = { s with captures := cs, captureLost := cl } := by
  unfold takeCapture; split <;> exact ⟨_, _, rfl⟩

@[simp] theorem takeCapture_frame (k : CaptureKind) (l : LaneId) (u : Issued) :
    (takeCapture k l u s).streams = s.streams ∧ (takeCapture k l u s).classifierRun = s.classifierRun
      ∧ (takeCapture k l u s).sample = s.sample ∧ (takeCapture k l u s).sweep = s.sweep
      ∧ (takeCapture k l u s).groups = s.groups ∧ (takeCapture k l u s).inHand = s.inHand
      ∧ (takeCapture k l u s).shareCount = s.shareCount ∧ (takeCapture k l u s).frontTags = s.frontTags
      ∧ (takeCapture k l u s).relocTags = s.relocTags ∧ (takeCapture k l u s).lanes = s.lanes
      ∧ (takeCapture k l u s).settings = s.settings ∧ (takeCapture k l u s).frontQueue = s.frontQueue
      ∧ (takeCapture k l u s).fhold = s.fhold ∧ (takeCapture k l u s).relocQueue = s.relocQueue
      ∧ (takeCapture k l u s).fLink = s.fLink ∧ (takeCapture k l u s).bLink = s.bLink
      ∧ (takeCapture k l u s).hold = s.hold ∧ (takeCapture k l u s).mode = s.mode
      ∧ (takeCapture k l u s).warning = s.warning ∧ (takeCapture k l u s).holdupPin = s.holdupPin
      ∧ (takeCapture k l u s).inReset = s.inReset ∧ (takeCapture k l u s).lastReset = s.lastReset
      ∧ (takeCapture k l u s).softResets = s.softResets ∧ (takeCapture k l u s).latches = s.latches
      ∧ (takeCapture k l u s).time = s.time ∧ (takeCapture k l u s).pending = s.pending
      ∧ (takeCapture k l u s).draws = s.draws := by
  obtain ⟨_, _, h⟩ := takeCapture_changes s k l u
  simp only [h, and_self]


/-! ## createAllB -/

theorem createAllB_changes (rs : List BRecord) : ∃ bl, s.createAllB rs = { s with bLink := bl } := by
  induction rs generalizing s with
  | nil => exact ⟨_, rfl⟩
  | cons r rs ih =>
    obtain ⟨_, h⟩ := ih (s.createB r)
    exact ⟨_, h⟩

@[simp] theorem createAllB_frame (rs : List BRecord) :
    (s.createAllB rs).streams = s.streams ∧ (s.createAllB rs).classifierRun = s.classifierRun
      ∧ (s.createAllB rs).sample = s.sample ∧ (s.createAllB rs).sweep = s.sweep
      ∧ (s.createAllB rs).groups = s.groups ∧ (s.createAllB rs).inHand = s.inHand
      ∧ (s.createAllB rs).shareCount = s.shareCount ∧ (s.createAllB rs).frontTags = s.frontTags
      ∧ (s.createAllB rs).relocTags = s.relocTags ∧ (s.createAllB rs).lanes = s.lanes
      ∧ (s.createAllB rs).settings = s.settings ∧ (s.createAllB rs).frontQueue = s.frontQueue
      ∧ (s.createAllB rs).fhold = s.fhold ∧ (s.createAllB rs).relocQueue = s.relocQueue
      ∧ (s.createAllB rs).fLink = s.fLink ∧ (s.createAllB rs).hold = s.hold ∧ (s.createAllB rs).mode = s.mode
      ∧ (s.createAllB rs).warning = s.warning ∧ (s.createAllB rs).holdupPin = s.holdupPin
      ∧ (s.createAllB rs).inReset = s.inReset ∧ (s.createAllB rs).lastReset = s.lastReset
      ∧ (s.createAllB rs).softResets = s.softResets ∧ (s.createAllB rs).latches = s.latches
      ∧ (s.createAllB rs).captures = s.captures ∧ (s.createAllB rs).captureLost = s.captureLost
      ∧ (s.createAllB rs).time = s.time ∧ (s.createAllB rs).pending = s.pending
      ∧ (s.createAllB rs).draws = s.draws := by
  obtain ⟨_, h⟩ := createAllB_changes s rs
  simp only [h, and_self]


/-! ## givebackAll -/

theorem givebackAll_changes (l : LaneId) (r : GivebackReason) (bs : List BlockAddr) : ∃ bl, givebackAll l r bs s = { s with bLink := bl } := by
  induction bs generalizing s with
  | nil => exact ⟨_, rfl⟩
  | cons b bs ih =>
    obtain ⟨_, h⟩ := ih (s.giveback (LaneId.field l) b r)
    exact ⟨_, h⟩

@[simp] theorem givebackAll_frame (l : LaneId) (r : GivebackReason) (bs : List BlockAddr) :
    (givebackAll l r bs s).streams = s.streams ∧ (givebackAll l r bs s).classifierRun = s.classifierRun
      ∧ (givebackAll l r bs s).sample = s.sample ∧ (givebackAll l r bs s).sweep = s.sweep
      ∧ (givebackAll l r bs s).groups = s.groups ∧ (givebackAll l r bs s).inHand = s.inHand
      ∧ (givebackAll l r bs s).shareCount = s.shareCount ∧ (givebackAll l r bs s).frontTags = s.frontTags
      ∧ (givebackAll l r bs s).relocTags = s.relocTags ∧ (givebackAll l r bs s).lanes = s.lanes
      ∧ (givebackAll l r bs s).settings = s.settings ∧ (givebackAll l r bs s).frontQueue = s.frontQueue
      ∧ (givebackAll l r bs s).fhold = s.fhold ∧ (givebackAll l r bs s).relocQueue = s.relocQueue
      ∧ (givebackAll l r bs s).fLink = s.fLink ∧ (givebackAll l r bs s).hold = s.hold
      ∧ (givebackAll l r bs s).mode = s.mode ∧ (givebackAll l r bs s).warning = s.warning
      ∧ (givebackAll l r bs s).holdupPin = s.holdupPin ∧ (givebackAll l r bs s).inReset = s.inReset
      ∧ (givebackAll l r bs s).lastReset = s.lastReset ∧ (givebackAll l r bs s).softResets = s.softResets
      ∧ (givebackAll l r bs s).latches = s.latches ∧ (givebackAll l r bs s).captures = s.captures
      ∧ (givebackAll l r bs s).captureLost = s.captureLost ∧ (givebackAll l r bs s).time = s.time
      ∧ (givebackAll l r bs s).pending = s.pending
      ∧ (givebackAll l r bs s).draws = s.draws := by
  obtain ⟨_, h⟩ := givebackAll_changes s l r bs
  simp only [h, and_self]


/-! ## createWant -/

theorem createWant_changes (l : LaneId) (n : Nat) : ∃ lns bl, createWant l n s = { s with lanes := lns, bLink := bl } := by
  unfold createWant; dsimp only; split <;> exact ⟨_, _, rfl⟩

@[simp] theorem createWant_frame (l : LaneId) (n : Nat) :
    (createWant l n s).streams = s.streams ∧ (createWant l n s).classifierRun = s.classifierRun
      ∧ (createWant l n s).sample = s.sample ∧ (createWant l n s).sweep = s.sweep
      ∧ (createWant l n s).groups = s.groups ∧ (createWant l n s).inHand = s.inHand
      ∧ (createWant l n s).shareCount = s.shareCount ∧ (createWant l n s).frontTags = s.frontTags
      ∧ (createWant l n s).relocTags = s.relocTags ∧ (createWant l n s).settings = s.settings
      ∧ (createWant l n s).frontQueue = s.frontQueue ∧ (createWant l n s).fhold = s.fhold
      ∧ (createWant l n s).relocQueue = s.relocQueue ∧ (createWant l n s).fLink = s.fLink
      ∧ (createWant l n s).hold = s.hold ∧ (createWant l n s).mode = s.mode ∧ (createWant l n s).warning = s.warning
      ∧ (createWant l n s).holdupPin = s.holdupPin ∧ (createWant l n s).inReset = s.inReset
      ∧ (createWant l n s).lastReset = s.lastReset ∧ (createWant l n s).softResets = s.softResets
      ∧ (createWant l n s).latches = s.latches ∧ (createWant l n s).captures = s.captures
      ∧ (createWant l n s).captureLost = s.captureLost ∧ (createWant l n s).time = s.time
      ∧ (createWant l n s).pending = s.pending
      ∧ (createWant l n s).draws = s.draws := by
  obtain ⟨_, _, h⟩ := createWant_changes s l n
  simp only [h, and_self]


/-! ## seekBlock -/

theorem seekBlock_changes (l : LaneId) : ∃ lns bl, seekBlock l s = { s with lanes := lns, bLink := bl } := by
  unfold seekBlock; dsimp only
  split
  · split
    · exact createWant_changes s l _
    · split
      · obtain ⟨_, _, h⟩ := createWant_changes (s.setLane l _) l _
        exact ⟨_, _, h⟩
      · exact ⟨_, _, rfl⟩
  · exact ⟨_, _, rfl⟩

@[simp] theorem seekBlock_frame (l : LaneId) :
    (seekBlock l s).streams = s.streams ∧ (seekBlock l s).classifierRun = s.classifierRun
      ∧ (seekBlock l s).sample = s.sample ∧ (seekBlock l s).sweep = s.sweep ∧ (seekBlock l s).groups = s.groups
      ∧ (seekBlock l s).inHand = s.inHand ∧ (seekBlock l s).shareCount = s.shareCount
      ∧ (seekBlock l s).frontTags = s.frontTags ∧ (seekBlock l s).relocTags = s.relocTags
      ∧ (seekBlock l s).settings = s.settings ∧ (seekBlock l s).frontQueue = s.frontQueue
      ∧ (seekBlock l s).fhold = s.fhold ∧ (seekBlock l s).relocQueue = s.relocQueue
      ∧ (seekBlock l s).fLink = s.fLink ∧ (seekBlock l s).hold = s.hold ∧ (seekBlock l s).mode = s.mode
      ∧ (seekBlock l s).warning = s.warning ∧ (seekBlock l s).holdupPin = s.holdupPin
      ∧ (seekBlock l s).inReset = s.inReset ∧ (seekBlock l s).lastReset = s.lastReset
      ∧ (seekBlock l s).softResets = s.softResets ∧ (seekBlock l s).latches = s.latches
      ∧ (seekBlock l s).captures = s.captures ∧ (seekBlock l s).captureLost = s.captureLost
      ∧ (seekBlock l s).time = s.time ∧ (seekBlock l s).pending = s.pending
      ∧ (seekBlock l s).draws = s.draws := by
  obtain ⟨_, _, h⟩ := seekBlock_changes s l
  simp only [h, and_self]


/-! ## claimLane -/

theorem claimLane_changes (g : GroupId) (l : LaneId) : ∃ lns bl, claimLane g s l = { s with lanes := lns, bLink := bl } := by
  obtain ⟨_, _, h⟩ := seekBlock_changes (s.setLane l { s.lanes.get l with state := .opening, owner := some g }) l
  exact ⟨_, _, h⟩

@[simp] theorem claimLane_frame (g : GroupId) (l : LaneId) :
    (claimLane g s l).streams = s.streams ∧ (claimLane g s l).classifierRun = s.classifierRun
      ∧ (claimLane g s l).sample = s.sample ∧ (claimLane g s l).sweep = s.sweep
      ∧ (claimLane g s l).groups = s.groups ∧ (claimLane g s l).inHand = s.inHand
      ∧ (claimLane g s l).shareCount = s.shareCount ∧ (claimLane g s l).frontTags = s.frontTags
      ∧ (claimLane g s l).relocTags = s.relocTags ∧ (claimLane g s l).settings = s.settings
      ∧ (claimLane g s l).frontQueue = s.frontQueue ∧ (claimLane g s l).fhold = s.fhold
      ∧ (claimLane g s l).relocQueue = s.relocQueue ∧ (claimLane g s l).fLink = s.fLink
      ∧ (claimLane g s l).hold = s.hold ∧ (claimLane g s l).mode = s.mode ∧ (claimLane g s l).warning = s.warning
      ∧ (claimLane g s l).holdupPin = s.holdupPin ∧ (claimLane g s l).inReset = s.inReset
      ∧ (claimLane g s l).lastReset = s.lastReset ∧ (claimLane g s l).softResets = s.softResets
      ∧ (claimLane g s l).latches = s.latches ∧ (claimLane g s l).captures = s.captures
      ∧ (claimLane g s l).captureLost = s.captureLost ∧ (claimLane g s l).time = s.time
      ∧ (claimLane g s l).pending = s.pending
      ∧ (claimLane g s l).draws = s.draws := by
  obtain ⟨_, _, h⟩ := claimLane_changes s g l
  simp only [h, and_self]


/-! ## claimLanes -/

theorem claimLanes_changes (g : GroupId) (ls : List LaneId) : ∃ lns bl, ls.foldl (claimLane g) s = { s with lanes := lns, bLink := bl } := by
  induction ls generalizing s with
  | nil => exact ⟨_, _, rfl⟩
  | cons l ls ih =>
    obtain ⟨_, _, h1⟩ := claimLane_changes s g l
    obtain ⟨_, _, h2⟩ := ih (claimLane g s l)
    exact ⟨_, _, by rw [List.foldl_cons, h2, h1]⟩

@[simp] theorem claimLanes_frame (g : GroupId) (ls : List LaneId) :
    (ls.foldl (claimLane g) s).streams = s.streams ∧ (ls.foldl (claimLane g) s).classifierRun = s.classifierRun
      ∧ (ls.foldl (claimLane g) s).sample = s.sample ∧ (ls.foldl (claimLane g) s).sweep = s.sweep
      ∧ (ls.foldl (claimLane g) s).groups = s.groups ∧ (ls.foldl (claimLane g) s).inHand = s.inHand
      ∧ (ls.foldl (claimLane g) s).shareCount = s.shareCount ∧ (ls.foldl (claimLane g) s).frontTags = s.frontTags
      ∧ (ls.foldl (claimLane g) s).relocTags = s.relocTags ∧ (ls.foldl (claimLane g) s).settings = s.settings
      ∧ (ls.foldl (claimLane g) s).frontQueue = s.frontQueue ∧ (ls.foldl (claimLane g) s).fhold = s.fhold
      ∧ (ls.foldl (claimLane g) s).relocQueue = s.relocQueue ∧ (ls.foldl (claimLane g) s).fLink = s.fLink
      ∧ (ls.foldl (claimLane g) s).hold = s.hold ∧ (ls.foldl (claimLane g) s).mode = s.mode
      ∧ (ls.foldl (claimLane g) s).warning = s.warning ∧ (ls.foldl (claimLane g) s).holdupPin = s.holdupPin
      ∧ (ls.foldl (claimLane g) s).inReset = s.inReset ∧ (ls.foldl (claimLane g) s).lastReset = s.lastReset
      ∧ (ls.foldl (claimLane g) s).softResets = s.softResets ∧ (ls.foldl (claimLane g) s).latches = s.latches
      ∧ (ls.foldl (claimLane g) s).captures = s.captures ∧ (ls.foldl (claimLane g) s).captureLost = s.captureLost
      ∧ (ls.foldl (claimLane g) s).time = s.time ∧ (ls.foldl (claimLane g) s).pending = s.pending
      ∧ (ls.foldl (claimLane g) s).draws = s.draws := by
  obtain ⟨_, _, h⟩ := claimLanes_changes s g ls
  simp only [h, and_self]


/-! ## faultedHandback -/

theorem faultedHandback_changes (l : LaneId) : ∃ lns bl, faultedHandback l s = { s with lanes := lns, bLink := bl } := by
  unfold faultedHandback; dsimp only; split <;> (try split) <;> exact ⟨_, _, rfl⟩

@[simp] theorem faultedHandback_frame (l : LaneId) :
    (faultedHandback l s).streams = s.streams ∧ (faultedHandback l s).classifierRun = s.classifierRun
      ∧ (faultedHandback l s).sample = s.sample ∧ (faultedHandback l s).sweep = s.sweep
      ∧ (faultedHandback l s).groups = s.groups ∧ (faultedHandback l s).inHand = s.inHand
      ∧ (faultedHandback l s).shareCount = s.shareCount ∧ (faultedHandback l s).frontTags = s.frontTags
      ∧ (faultedHandback l s).relocTags = s.relocTags ∧ (faultedHandback l s).settings = s.settings
      ∧ (faultedHandback l s).frontQueue = s.frontQueue ∧ (faultedHandback l s).fhold = s.fhold
      ∧ (faultedHandback l s).relocQueue = s.relocQueue ∧ (faultedHandback l s).fLink = s.fLink
      ∧ (faultedHandback l s).hold = s.hold ∧ (faultedHandback l s).mode = s.mode
      ∧ (faultedHandback l s).warning = s.warning ∧ (faultedHandback l s).holdupPin = s.holdupPin
      ∧ (faultedHandback l s).inReset = s.inReset ∧ (faultedHandback l s).lastReset = s.lastReset
      ∧ (faultedHandback l s).softResets = s.softResets ∧ (faultedHandback l s).latches = s.latches
      ∧ (faultedHandback l s).captures = s.captures ∧ (faultedHandback l s).captureLost = s.captureLost
      ∧ (faultedHandback l s).time = s.time ∧ (faultedHandback l s).pending = s.pending
      ∧ (faultedHandback l s).draws = s.draws := by
  obtain ⟨_, _, h⟩ := faultedHandback_changes s l
  simp only [h, and_self]


/-! ## completeDrain -/

theorem completeDrain_changes (l : LaneId) : ∃ lns bl, completeDrain l s = { s with lanes := lns, bLink := bl } := by
  unfold completeDrain; dsimp only
  split
  · split
    · obtain ⟨_, h⟩ := givebackAll_changes (State.giveback (s.setLane l _) (LaneId.field l) _ .unused) l .unused (s.lanes.get l).reserve
      exact ⟨_, _, h⟩
    · obtain ⟨_, h⟩ := givebackAll_changes (State.giveback (s.setLane l _) (LaneId.field l) _ .partlyUsed _) l .unused (s.lanes.get l).reserve
      exact ⟨_, _, h⟩
  · obtain ⟨_, h⟩ := givebackAll_changes (s.setLane l _) l .unused (s.lanes.get l).reserve
    exact ⟨_, _, h⟩

@[simp] theorem completeDrain_frame (l : LaneId) :
    (completeDrain l s).streams = s.streams ∧ (completeDrain l s).classifierRun = s.classifierRun
      ∧ (completeDrain l s).sample = s.sample ∧ (completeDrain l s).sweep = s.sweep
      ∧ (completeDrain l s).groups = s.groups ∧ (completeDrain l s).inHand = s.inHand
      ∧ (completeDrain l s).shareCount = s.shareCount ∧ (completeDrain l s).frontTags = s.frontTags
      ∧ (completeDrain l s).relocTags = s.relocTags ∧ (completeDrain l s).settings = s.settings
      ∧ (completeDrain l s).frontQueue = s.frontQueue ∧ (completeDrain l s).fhold = s.fhold
      ∧ (completeDrain l s).relocQueue = s.relocQueue ∧ (completeDrain l s).fLink = s.fLink
      ∧ (completeDrain l s).hold = s.hold ∧ (completeDrain l s).mode = s.mode
      ∧ (completeDrain l s).warning = s.warning ∧ (completeDrain l s).holdupPin = s.holdupPin
      ∧ (completeDrain l s).inReset = s.inReset ∧ (completeDrain l s).lastReset = s.lastReset
      ∧ (completeDrain l s).softResets = s.softResets ∧ (completeDrain l s).latches = s.latches
      ∧ (completeDrain l s).captures = s.captures ∧ (completeDrain l s).captureLost = s.captureLost
      ∧ (completeDrain l s).time = s.time ∧ (completeDrain l s).pending = s.pending
      ∧ (completeDrain l s).draws = s.draws := by
  obtain ⟨_, _, h⟩ := completeDrain_changes s l
  simp only [h, and_self]


/-! ## checkDrain -/

theorem checkDrain_changes (l : LaneId) : ∃ lns bl, checkDrain l s = { s with lanes := lns, bLink := bl } := by
  unfold checkDrain; dsimp only; split
  · exact completeDrain_changes s l
  · exact ⟨_, _, rfl⟩

@[simp] theorem checkDrain_frame (l : LaneId) :
    (checkDrain l s).streams = s.streams ∧ (checkDrain l s).classifierRun = s.classifierRun
      ∧ (checkDrain l s).sample = s.sample ∧ (checkDrain l s).sweep = s.sweep ∧ (checkDrain l s).groups = s.groups
      ∧ (checkDrain l s).inHand = s.inHand ∧ (checkDrain l s).shareCount = s.shareCount
      ∧ (checkDrain l s).frontTags = s.frontTags ∧ (checkDrain l s).relocTags = s.relocTags
      ∧ (checkDrain l s).settings = s.settings ∧ (checkDrain l s).frontQueue = s.frontQueue
      ∧ (checkDrain l s).fhold = s.fhold ∧ (checkDrain l s).relocQueue = s.relocQueue
      ∧ (checkDrain l s).fLink = s.fLink ∧ (checkDrain l s).hold = s.hold ∧ (checkDrain l s).mode = s.mode
      ∧ (checkDrain l s).warning = s.warning ∧ (checkDrain l s).holdupPin = s.holdupPin
      ∧ (checkDrain l s).inReset = s.inReset ∧ (checkDrain l s).lastReset = s.lastReset
      ∧ (checkDrain l s).softResets = s.softResets ∧ (checkDrain l s).latches = s.latches
      ∧ (checkDrain l s).captures = s.captures ∧ (checkDrain l s).captureLost = s.captureLost
      ∧ (checkDrain l s).time = s.time ∧ (checkDrain l s).pending = s.pending
      ∧ (checkDrain l s).draws = s.draws := by
  obtain ⟨_, _, h⟩ := checkDrain_changes s l
  simp only [h, and_self]


/-! ## afterUnit -/

theorem afterUnit_changes (l : LaneId) : ∃ lns bl, afterUnit l s = { s with lanes := lns, bLink := bl } := by
  unfold afterUnit; split
  · exact faultedHandback_changes s l
  · exact checkDrain_changes s l

@[simp] theorem afterUnit_frame (l : LaneId) :
    (afterUnit l s).streams = s.streams ∧ (afterUnit l s).classifierRun = s.classifierRun
      ∧ (afterUnit l s).sample = s.sample ∧ (afterUnit l s).sweep = s.sweep ∧ (afterUnit l s).groups = s.groups
      ∧ (afterUnit l s).inHand = s.inHand ∧ (afterUnit l s).shareCount = s.shareCount
      ∧ (afterUnit l s).frontTags = s.frontTags ∧ (afterUnit l s).relocTags = s.relocTags
      ∧ (afterUnit l s).settings = s.settings ∧ (afterUnit l s).frontQueue = s.frontQueue
      ∧ (afterUnit l s).fhold = s.fhold ∧ (afterUnit l s).relocQueue = s.relocQueue
      ∧ (afterUnit l s).fLink = s.fLink ∧ (afterUnit l s).hold = s.hold ∧ (afterUnit l s).mode = s.mode
      ∧ (afterUnit l s).warning = s.warning ∧ (afterUnit l s).holdupPin = s.holdupPin
      ∧ (afterUnit l s).inReset = s.inReset ∧ (afterUnit l s).lastReset = s.lastReset
      ∧ (afterUnit l s).softResets = s.softResets ∧ (afterUnit l s).latches = s.latches
      ∧ (afterUnit l s).captures = s.captures ∧ (afterUnit l s).captureLost = s.captureLost
      ∧ (afterUnit l s).time = s.time ∧ (afterUnit l s).pending = s.pending
      ∧ (afterUnit l s).draws = s.draws := by
  obtain ⟨_, _, h⟩ := afterUnit_changes s l
  simp only [h, and_self]


/-! ## faultEntry -/

theorem faultEntry_changes (l : LaneId) : ∃ gs lns ft rt fl bl, faultEntry l s = { s with groups := gs, lanes := lns, frontTags := ft, relocTags := rt, fLink := fl, bLink := bl } := by
  unfold faultEntry; dsimp only
  obtain ⟨_, _, h1⟩ := faultedHandback_changes (givebackAll l .unused (s.lanes.get l).reserve
    (settleEntries false (s.lanes.get l).discards ((s.clearMaps l).setLane l _))) l
  obtain ⟨_, h2⟩ := givebackAll_changes
    (settleEntries false (s.lanes.get l).discards ((s.clearMaps l).setLane l _)) l .unused (s.lanes.get l).reserve
  obtain ⟨_, _, _, _, h3⟩ := settleEntries_changes ((s.clearMaps l).setLane l _) false (s.lanes.get l).discards
  exact ⟨_, _, _, _, _, _, by rw [h1, h2, h3]; rfl⟩

@[simp] theorem faultEntry_frame (l : LaneId) :
    (faultEntry l s).streams = s.streams ∧ (faultEntry l s).classifierRun = s.classifierRun
      ∧ (faultEntry l s).sample = s.sample ∧ (faultEntry l s).sweep = s.sweep ∧ (faultEntry l s).inHand = s.inHand
      ∧ (faultEntry l s).shareCount = s.shareCount ∧ (faultEntry l s).settings = s.settings
      ∧ (faultEntry l s).frontQueue = s.frontQueue ∧ (faultEntry l s).fhold = s.fhold
      ∧ (faultEntry l s).relocQueue = s.relocQueue ∧ (faultEntry l s).hold = s.hold ∧ (faultEntry l s).mode = s.mode
      ∧ (faultEntry l s).warning = s.warning ∧ (faultEntry l s).holdupPin = s.holdupPin
      ∧ (faultEntry l s).inReset = s.inReset ∧ (faultEntry l s).lastReset = s.lastReset
      ∧ (faultEntry l s).softResets = s.softResets ∧ (faultEntry l s).latches = s.latches
      ∧ (faultEntry l s).captures = s.captures ∧ (faultEntry l s).captureLost = s.captureLost
      ∧ (faultEntry l s).time = s.time ∧ (faultEntry l s).pending = s.pending
      ∧ (faultEntry l s).draws = s.draws := by
  obtain ⟨_, _, _, _, _, _, h⟩ := faultEntry_changes s l
  simp only [h, and_self]


/-! ## advanceBlock -/

theorem advanceBlock_changes (l : LaneId) : ∃ lns bl, advanceBlock l s = { s with lanes := lns, bLink := bl } := by
  unfold advanceBlock; dsimp only
  split
  · obtain ⟨_, _, h⟩ := seekBlock_changes (s.setLane l _) l
    exact ⟨_, _, h⟩
  · exact ⟨_, _, rfl⟩

@[simp] theorem advanceBlock_frame (l : LaneId) :
    (advanceBlock l s).streams = s.streams ∧ (advanceBlock l s).classifierRun = s.classifierRun
      ∧ (advanceBlock l s).sample = s.sample ∧ (advanceBlock l s).sweep = s.sweep
      ∧ (advanceBlock l s).groups = s.groups ∧ (advanceBlock l s).inHand = s.inHand
      ∧ (advanceBlock l s).shareCount = s.shareCount ∧ (advanceBlock l s).frontTags = s.frontTags
      ∧ (advanceBlock l s).relocTags = s.relocTags ∧ (advanceBlock l s).settings = s.settings
      ∧ (advanceBlock l s).frontQueue = s.frontQueue ∧ (advanceBlock l s).fhold = s.fhold
      ∧ (advanceBlock l s).relocQueue = s.relocQueue ∧ (advanceBlock l s).fLink = s.fLink
      ∧ (advanceBlock l s).hold = s.hold ∧ (advanceBlock l s).mode = s.mode ∧ (advanceBlock l s).warning = s.warning
      ∧ (advanceBlock l s).holdupPin = s.holdupPin ∧ (advanceBlock l s).inReset = s.inReset
      ∧ (advanceBlock l s).lastReset = s.lastReset ∧ (advanceBlock l s).softResets = s.softResets
      ∧ (advanceBlock l s).latches = s.latches ∧ (advanceBlock l s).captures = s.captures
      ∧ (advanceBlock l s).captureLost = s.captureLost ∧ (advanceBlock l s).time = s.time
      ∧ (advanceBlock l s).pending = s.pending
      ∧ (advanceBlock l s).draws = s.draws := by
  obtain ⟨_, _, h⟩ := advanceBlock_changes s l
  simp only [h, and_self]


/-! ## issue -/

theorem issue_changes (l : LaneId) : ∃ lns bl, issue l s = { s with lanes := lns, bLink := bl } := by
  unfold issue
  split
  · dsimp only
    obtain ⟨_, _, h⟩ := advanceBlock_changes { (s.setLane l _) with bLink := _ } l
    exact ⟨_, _, by rw [h]; rfl⟩
  · exact ⟨_, _, rfl⟩

@[simp] theorem issue_frame (l : LaneId) :
    (issue l s).streams = s.streams ∧ (issue l s).classifierRun = s.classifierRun ∧ (issue l s).sample = s.sample
      ∧ (issue l s).sweep = s.sweep ∧ (issue l s).groups = s.groups ∧ (issue l s).inHand = s.inHand
      ∧ (issue l s).shareCount = s.shareCount ∧ (issue l s).frontTags = s.frontTags
      ∧ (issue l s).relocTags = s.relocTags ∧ (issue l s).settings = s.settings
      ∧ (issue l s).frontQueue = s.frontQueue ∧ (issue l s).fhold = s.fhold ∧ (issue l s).relocQueue = s.relocQueue
      ∧ (issue l s).fLink = s.fLink ∧ (issue l s).hold = s.hold ∧ (issue l s).mode = s.mode
      ∧ (issue l s).warning = s.warning ∧ (issue l s).holdupPin = s.holdupPin ∧ (issue l s).inReset = s.inReset
      ∧ (issue l s).lastReset = s.lastReset ∧ (issue l s).softResets = s.softResets
      ∧ (issue l s).latches = s.latches ∧ (issue l s).captures = s.captures
      ∧ (issue l s).captureLost = s.captureLost ∧ (issue l s).time = s.time ∧ (issue l s).pending = s.pending
      ∧ (issue l s).draws = s.draws := by
  obtain ⟨_, _, h⟩ := issue_changes s l
  simp only [h, and_self]


/-! ## transmitterChoice -/

theorem transmitterChoice_changes : ∃ lns bl, transmitterChoice s = { s with lanes := lns, bLink := bl } := by
  unfold transmitterChoice
  split
  · exact ⟨_, _, rfl⟩
  · exact ⟨_, _, rfl⟩
  · split
    · split
      · exact issue_changes s _
      · exact ⟨_, _, rfl⟩
    · exact ⟨_, _, rfl⟩

@[simp] theorem transmitterChoice_frame :
    (transmitterChoice s).streams = s.streams ∧ (transmitterChoice s).classifierRun = s.classifierRun
      ∧ (transmitterChoice s).sample = s.sample ∧ (transmitterChoice s).sweep = s.sweep
      ∧ (transmitterChoice s).groups = s.groups ∧ (transmitterChoice s).inHand = s.inHand
      ∧ (transmitterChoice s).shareCount = s.shareCount ∧ (transmitterChoice s).frontTags = s.frontTags
      ∧ (transmitterChoice s).relocTags = s.relocTags ∧ (transmitterChoice s).settings = s.settings
      ∧ (transmitterChoice s).frontQueue = s.frontQueue ∧ (transmitterChoice s).fhold = s.fhold
      ∧ (transmitterChoice s).relocQueue = s.relocQueue ∧ (transmitterChoice s).fLink = s.fLink
      ∧ (transmitterChoice s).hold = s.hold ∧ (transmitterChoice s).mode = s.mode
      ∧ (transmitterChoice s).warning = s.warning ∧ (transmitterChoice s).holdupPin = s.holdupPin
      ∧ (transmitterChoice s).inReset = s.inReset ∧ (transmitterChoice s).lastReset = s.lastReset
      ∧ (transmitterChoice s).softResets = s.softResets ∧ (transmitterChoice s).latches = s.latches
      ∧ (transmitterChoice s).captures = s.captures ∧ (transmitterChoice s).captureLost = s.captureLost
      ∧ (transmitterChoice s).time = s.time ∧ (transmitterChoice s).pending = s.pending
      ∧ (transmitterChoice s).draws = s.draws := by
  obtain ⟨_, _, h⟩ := transmitterChoice_changes s
  simp only [h, and_self]


/-! ## flushCheck -/

theorem flushCheck_changes : ∃ fl m, flushCheck s = { s with fLink := fl, mode := m } := by
  unfold flushCheck; split <;> exact ⟨_, _, rfl⟩

@[simp] theorem flushCheck_frame :
    (flushCheck s).streams = s.streams ∧ (flushCheck s).classifierRun = s.classifierRun
      ∧ (flushCheck s).sample = s.sample ∧ (flushCheck s).sweep = s.sweep ∧ (flushCheck s).groups = s.groups
      ∧ (flushCheck s).inHand = s.inHand ∧ (flushCheck s).shareCount = s.shareCount
      ∧ (flushCheck s).frontTags = s.frontTags ∧ (flushCheck s).relocTags = s.relocTags
      ∧ (flushCheck s).lanes = s.lanes ∧ (flushCheck s).settings = s.settings
      ∧ (flushCheck s).frontQueue = s.frontQueue ∧ (flushCheck s).fhold = s.fhold
      ∧ (flushCheck s).relocQueue = s.relocQueue ∧ (flushCheck s).bLink = s.bLink ∧ (flushCheck s).hold = s.hold
      ∧ (flushCheck s).warning = s.warning ∧ (flushCheck s).holdupPin = s.holdupPin
      ∧ (flushCheck s).inReset = s.inReset ∧ (flushCheck s).lastReset = s.lastReset
      ∧ (flushCheck s).softResets = s.softResets ∧ (flushCheck s).latches = s.latches
      ∧ (flushCheck s).captures = s.captures ∧ (flushCheck s).captureLost = s.captureLost
      ∧ (flushCheck s).time = s.time ∧ (flushCheck s).pending = s.pending
      ∧ (flushCheck s).draws = s.draws := by
  obtain ⟨_, _, h⟩ := flushCheck_changes s
  simp only [h, and_self]


/-! ## beginFlush -/

theorem beginFlush_changes : ∃ wn m lns xs fl bl, beginFlush s = { s with warning := wn, mode := m, lanes := lns, latches := xs, fLink := fl, bLink := bl } := by
  unfold beginFlush; dsimp only
  obtain ⟨_, _, h1⟩ := transmitterChoice_changes (flushCheck (State.latchLevels { s with
    warning := true, mode := .flushing, lanes := s.lanes.map (Lane.flush s.settings.unitSize) }))
  obtain ⟨_, _, h2⟩ := flushCheck_changes (State.latchLevels { s with
    warning := true, mode := .flushing, lanes := s.lanes.map (Lane.flush s.settings.unitSize) })
  exact ⟨_, _, _, _, _, _, by rw [h1, h2]; rfl⟩

@[simp] theorem beginFlush_frame :
    (beginFlush s).streams = s.streams ∧ (beginFlush s).classifierRun = s.classifierRun
      ∧ (beginFlush s).sample = s.sample ∧ (beginFlush s).sweep = s.sweep ∧ (beginFlush s).groups = s.groups
      ∧ (beginFlush s).inHand = s.inHand ∧ (beginFlush s).shareCount = s.shareCount
      ∧ (beginFlush s).frontTags = s.frontTags ∧ (beginFlush s).relocTags = s.relocTags
      ∧ (beginFlush s).settings = s.settings ∧ (beginFlush s).frontQueue = s.frontQueue
      ∧ (beginFlush s).fhold = s.fhold ∧ (beginFlush s).relocQueue = s.relocQueue ∧ (beginFlush s).hold = s.hold
      ∧ (beginFlush s).holdupPin = s.holdupPin ∧ (beginFlush s).inReset = s.inReset
      ∧ (beginFlush s).lastReset = s.lastReset ∧ (beginFlush s).softResets = s.softResets
      ∧ (beginFlush s).captures = s.captures ∧ (beginFlush s).captureLost = s.captureLost
      ∧ (beginFlush s).time = s.time ∧ (beginFlush s).pending = s.pending
      ∧ (beginFlush s).draws = s.draws := by
  obtain ⟨_, _, _, _, _, _, h⟩ := beginFlush_changes s
  simp only [h, and_self]


/-! ## sweepTick -/

theorem sweepTick_changes : ∃ sw xs, sweepTick s = { s with sweep := sw, latches := xs } := by
  unfold sweepTick; split
  · exact ⟨_, _, rfl⟩
  · split <;> exact ⟨_, _, rfl⟩

@[simp] theorem sweepTick_frame :
    (sweepTick s).streams = s.streams ∧ (sweepTick s).classifierRun = s.classifierRun
      ∧ (sweepTick s).sample = s.sample ∧ (sweepTick s).groups = s.groups ∧ (sweepTick s).inHand = s.inHand
      ∧ (sweepTick s).shareCount = s.shareCount ∧ (sweepTick s).frontTags = s.frontTags
      ∧ (sweepTick s).relocTags = s.relocTags ∧ (sweepTick s).lanes = s.lanes ∧ (sweepTick s).settings = s.settings
      ∧ (sweepTick s).frontQueue = s.frontQueue ∧ (sweepTick s).fhold = s.fhold
      ∧ (sweepTick s).relocQueue = s.relocQueue ∧ (sweepTick s).fLink = s.fLink ∧ (sweepTick s).bLink = s.bLink
      ∧ (sweepTick s).hold = s.hold ∧ (sweepTick s).mode = s.mode ∧ (sweepTick s).warning = s.warning
      ∧ (sweepTick s).holdupPin = s.holdupPin ∧ (sweepTick s).inReset = s.inReset
      ∧ (sweepTick s).lastReset = s.lastReset ∧ (sweepTick s).softResets = s.softResets
      ∧ (sweepTick s).captures = s.captures ∧ (sweepTick s).captureLost = s.captureLost
      ∧ (sweepTick s).time = s.time ∧ (sweepTick s).pending = s.pending
      ∧ (sweepTick s).draws = s.draws := by
  obtain ⟨_, _, h⟩ := sweepTick_changes s
  simp only [h, and_self]


/-! ## placeSectors -/

theorem placeSectors_changes (l : LaneId) (zs : List Sector) : ∃ lns, placeSectors l zs s = { s with lanes := lns } := ⟨_, rfl⟩

@[simp] theorem placeSectors_frame (l : LaneId) (zs : List Sector) :
    (placeSectors l zs s).streams = s.streams ∧ (placeSectors l zs s).classifierRun = s.classifierRun
      ∧ (placeSectors l zs s).sample = s.sample ∧ (placeSectors l zs s).sweep = s.sweep
      ∧ (placeSectors l zs s).groups = s.groups ∧ (placeSectors l zs s).inHand = s.inHand
      ∧ (placeSectors l zs s).shareCount = s.shareCount ∧ (placeSectors l zs s).frontTags = s.frontTags
      ∧ (placeSectors l zs s).relocTags = s.relocTags ∧ (placeSectors l zs s).settings = s.settings
      ∧ (placeSectors l zs s).frontQueue = s.frontQueue ∧ (placeSectors l zs s).fhold = s.fhold
      ∧ (placeSectors l zs s).relocQueue = s.relocQueue ∧ (placeSectors l zs s).fLink = s.fLink
      ∧ (placeSectors l zs s).bLink = s.bLink ∧ (placeSectors l zs s).hold = s.hold
      ∧ (placeSectors l zs s).mode = s.mode ∧ (placeSectors l zs s).warning = s.warning
      ∧ (placeSectors l zs s).holdupPin = s.holdupPin ∧ (placeSectors l zs s).inReset = s.inReset
      ∧ (placeSectors l zs s).lastReset = s.lastReset ∧ (placeSectors l zs s).softResets = s.softResets
      ∧ (placeSectors l zs s).latches = s.latches ∧ (placeSectors l zs s).captures = s.captures
      ∧ (placeSectors l zs s).captureLost = s.captureLost ∧ (placeSectors l zs s).time = s.time
      ∧ (placeSectors l zs s).pending = s.pending
      ∧ (placeSectors l zs s).draws = s.draws := by
  obtain ⟨_, h⟩ := placeSectors_changes s l zs
  simp only [h, and_self]


/-! ## countBackoff -/

theorem countBackoff_changes (l : LaneId) : ∃ lns, countBackoff l s = { s with lanes := lns } := ⟨_, rfl⟩

@[simp] theorem countBackoff_frame (l : LaneId) :
    (countBackoff l s).streams = s.streams ∧ (countBackoff l s).classifierRun = s.classifierRun
      ∧ (countBackoff l s).sample = s.sample ∧ (countBackoff l s).sweep = s.sweep
      ∧ (countBackoff l s).groups = s.groups ∧ (countBackoff l s).inHand = s.inHand
      ∧ (countBackoff l s).shareCount = s.shareCount ∧ (countBackoff l s).frontTags = s.frontTags
      ∧ (countBackoff l s).relocTags = s.relocTags ∧ (countBackoff l s).settings = s.settings
      ∧ (countBackoff l s).frontQueue = s.frontQueue ∧ (countBackoff l s).fhold = s.fhold
      ∧ (countBackoff l s).relocQueue = s.relocQueue ∧ (countBackoff l s).fLink = s.fLink
      ∧ (countBackoff l s).bLink = s.bLink ∧ (countBackoff l s).hold = s.hold ∧ (countBackoff l s).mode = s.mode
      ∧ (countBackoff l s).warning = s.warning ∧ (countBackoff l s).holdupPin = s.holdupPin
      ∧ (countBackoff l s).inReset = s.inReset ∧ (countBackoff l s).lastReset = s.lastReset
      ∧ (countBackoff l s).softResets = s.softResets ∧ (countBackoff l s).latches = s.latches
      ∧ (countBackoff l s).captures = s.captures ∧ (countBackoff l s).captureLost = s.captureLost
      ∧ (countBackoff l s).time = s.time ∧ (countBackoff l s).pending = s.pending
      ∧ (countBackoff l s).draws = s.draws := by
  obtain ⟨_, h⟩ := countBackoff_changes s l
  simp only [h, and_self]


/-! ## refuseWrite -/

theorem refuseWrite_changes (w : WriteRec) (r : BackoffReason) : ∃ fl xs, refuseWrite w r s = { s with fLink := fl, latches := xs } := ⟨_, _, rfl⟩

@[simp] theorem refuseWrite_frame (w : WriteRec) (r : BackoffReason) :
    (refuseWrite w r s).streams = s.streams ∧ (refuseWrite w r s).classifierRun = s.classifierRun
      ∧ (refuseWrite w r s).sample = s.sample ∧ (refuseWrite w r s).sweep = s.sweep
      ∧ (refuseWrite w r s).groups = s.groups ∧ (refuseWrite w r s).inHand = s.inHand
      ∧ (refuseWrite w r s).shareCount = s.shareCount ∧ (refuseWrite w r s).frontTags = s.frontTags
      ∧ (refuseWrite w r s).relocTags = s.relocTags ∧ (refuseWrite w r s).lanes = s.lanes
      ∧ (refuseWrite w r s).settings = s.settings ∧ (refuseWrite w r s).frontQueue = s.frontQueue
      ∧ (refuseWrite w r s).fhold = s.fhold ∧ (refuseWrite w r s).relocQueue = s.relocQueue
      ∧ (refuseWrite w r s).bLink = s.bLink ∧ (refuseWrite w r s).hold = s.hold ∧ (refuseWrite w r s).mode = s.mode
      ∧ (refuseWrite w r s).warning = s.warning ∧ (refuseWrite w r s).holdupPin = s.holdupPin
      ∧ (refuseWrite w r s).inReset = s.inReset ∧ (refuseWrite w r s).lastReset = s.lastReset
      ∧ (refuseWrite w r s).softResets = s.softResets ∧ (refuseWrite w r s).captures = s.captures
      ∧ (refuseWrite w r s).captureLost = s.captureLost ∧ (refuseWrite w r s).time = s.time
      ∧ (refuseWrite w r s).pending = s.pending
      ∧ (refuseWrite w r s).draws = s.draws := by
  obtain ⟨_, _, h⟩ := refuseWrite_changes s w r
  simp only [h, and_self]


/-! ## refuseRelocate -/

theorem refuseRelocate_changes (y : RelocateRec) (r : BackoffReason) : ∃ bl xs, refuseRelocate y r s = { s with bLink := bl, latches := xs } := ⟨_, _, rfl⟩

@[simp] theorem refuseRelocate_frame (y : RelocateRec) (r : BackoffReason) :
    (refuseRelocate y r s).streams = s.streams ∧ (refuseRelocate y r s).classifierRun = s.classifierRun
      ∧ (refuseRelocate y r s).sample = s.sample ∧ (refuseRelocate y r s).sweep = s.sweep
      ∧ (refuseRelocate y r s).groups = s.groups ∧ (refuseRelocate y r s).inHand = s.inHand
      ∧ (refuseRelocate y r s).shareCount = s.shareCount ∧ (refuseRelocate y r s).frontTags = s.frontTags
      ∧ (refuseRelocate y r s).relocTags = s.relocTags ∧ (refuseRelocate y r s).lanes = s.lanes
      ∧ (refuseRelocate y r s).settings = s.settings ∧ (refuseRelocate y r s).frontQueue = s.frontQueue
      ∧ (refuseRelocate y r s).fhold = s.fhold ∧ (refuseRelocate y r s).relocQueue = s.relocQueue
      ∧ (refuseRelocate y r s).fLink = s.fLink ∧ (refuseRelocate y r s).hold = s.hold
      ∧ (refuseRelocate y r s).mode = s.mode ∧ (refuseRelocate y r s).warning = s.warning
      ∧ (refuseRelocate y r s).holdupPin = s.holdupPin ∧ (refuseRelocate y r s).inReset = s.inReset
      ∧ (refuseRelocate y r s).lastReset = s.lastReset ∧ (refuseRelocate y r s).softResets = s.softResets
      ∧ (refuseRelocate y r s).captures = s.captures ∧ (refuseRelocate y r s).captureLost = s.captureLost
      ∧ (refuseRelocate y r s).time = s.time ∧ (refuseRelocate y r s).pending = s.pending
      ∧ (refuseRelocate y r s).draws = s.draws := by
  obtain ⟨_, _, h⟩ := refuseRelocate_changes s y r
  simp only [h, and_self]


/-! ## classifyWrite -/

theorem classifyWrite_changes (w : WriteRec) : ∃ st ft lns fl xs, classifyWrite w s = { s with streams := st, frontTags := ft, lanes := lns, fLink := fl, latches := xs } := by
  unfold classifyWrite; dsimp only; split
  · split
    · exact ⟨_, _, _, _, _, rfl⟩
    · split <;> exact ⟨_, _, _, _, _, rfl⟩
  · exact ⟨_, _, _, _, _, rfl⟩

@[simp] theorem classifyWrite_frame (w : WriteRec) :
    (classifyWrite w s).classifierRun = s.classifierRun ∧ (classifyWrite w s).sample = s.sample
      ∧ (classifyWrite w s).sweep = s.sweep ∧ (classifyWrite w s).groups = s.groups
      ∧ (classifyWrite w s).inHand = s.inHand ∧ (classifyWrite w s).shareCount = s.shareCount
      ∧ (classifyWrite w s).relocTags = s.relocTags ∧ (classifyWrite w s).settings = s.settings
      ∧ (classifyWrite w s).frontQueue = s.frontQueue ∧ (classifyWrite w s).fhold = s.fhold
      ∧ (classifyWrite w s).relocQueue = s.relocQueue ∧ (classifyWrite w s).bLink = s.bLink
      ∧ (classifyWrite w s).hold = s.hold ∧ (classifyWrite w s).mode = s.mode
      ∧ (classifyWrite w s).warning = s.warning ∧ (classifyWrite w s).holdupPin = s.holdupPin
      ∧ (classifyWrite w s).inReset = s.inReset ∧ (classifyWrite w s).lastReset = s.lastReset
      ∧ (classifyWrite w s).softResets = s.softResets ∧ (classifyWrite w s).captures = s.captures
      ∧ (classifyWrite w s).captureLost = s.captureLost ∧ (classifyWrite w s).time = s.time
      ∧ (classifyWrite w s).pending = s.pending
      ∧ (classifyWrite w s).draws = s.draws := by
  obtain ⟨_, _, _, _, _, h⟩ := classifyWrite_changes s w
  simp only [h, and_self]


/-! ## classifyRelocate -/

theorem classifyRelocate_changes (y : RelocateRec) : ∃ rt lns bl xs, classifyRelocate y s = { s with relocTags := rt, lanes := lns, bLink := bl, latches := xs } := by
  unfold classifyRelocate; dsimp only; split
  · exact ⟨_, _, _, _, rfl⟩
  · split <;> exact ⟨_, _, _, _, rfl⟩

@[simp] theorem classifyRelocate_frame (y : RelocateRec) :
    (classifyRelocate y s).streams = s.streams ∧ (classifyRelocate y s).classifierRun = s.classifierRun
      ∧ (classifyRelocate y s).sample = s.sample ∧ (classifyRelocate y s).sweep = s.sweep
      ∧ (classifyRelocate y s).groups = s.groups ∧ (classifyRelocate y s).inHand = s.inHand
      ∧ (classifyRelocate y s).shareCount = s.shareCount ∧ (classifyRelocate y s).frontTags = s.frontTags
      ∧ (classifyRelocate y s).settings = s.settings ∧ (classifyRelocate y s).frontQueue = s.frontQueue
      ∧ (classifyRelocate y s).fhold = s.fhold ∧ (classifyRelocate y s).relocQueue = s.relocQueue
      ∧ (classifyRelocate y s).fLink = s.fLink ∧ (classifyRelocate y s).hold = s.hold
      ∧ (classifyRelocate y s).mode = s.mode ∧ (classifyRelocate y s).warning = s.warning
      ∧ (classifyRelocate y s).holdupPin = s.holdupPin ∧ (classifyRelocate y s).inReset = s.inReset
      ∧ (classifyRelocate y s).lastReset = s.lastReset ∧ (classifyRelocate y s).softResets = s.softResets
      ∧ (classifyRelocate y s).captures = s.captures ∧ (classifyRelocate y s).captureLost = s.captureLost
      ∧ (classifyRelocate y s).time = s.time ∧ (classifyRelocate y s).pending = s.pending
      ∧ (classifyRelocate y s).draws = s.draws := by
  obtain ⟨_, _, _, _, h⟩ := classifyRelocate_changes s y
  simp only [h, and_self]


/-! ## storeStream -/

theorem storeStream_changes (a : Admin) (i : StreamId) (l : List (Byte × BitVec 64)) : ∃ st fl, storeStream a i l s = { s with streams := st, fLink := fl } := by
  unfold storeStream; split
  · exact ⟨_, _, rfl⟩
  · split
    · exact ⟨_, _, rfl⟩
    · split <;> exact ⟨_, _, rfl⟩

@[simp] theorem storeStream_frame (a : Admin) (i : StreamId) (l : List (Byte × BitVec 64)) :
    (storeStream a i l s).classifierRun = s.classifierRun ∧ (storeStream a i l s).sample = s.sample
      ∧ (storeStream a i l s).sweep = s.sweep ∧ (storeStream a i l s).groups = s.groups
      ∧ (storeStream a i l s).inHand = s.inHand ∧ (storeStream a i l s).shareCount = s.shareCount
      ∧ (storeStream a i l s).frontTags = s.frontTags ∧ (storeStream a i l s).relocTags = s.relocTags
      ∧ (storeStream a i l s).lanes = s.lanes ∧ (storeStream a i l s).settings = s.settings
      ∧ (storeStream a i l s).frontQueue = s.frontQueue ∧ (storeStream a i l s).fhold = s.fhold
      ∧ (storeStream a i l s).relocQueue = s.relocQueue ∧ (storeStream a i l s).bLink = s.bLink
      ∧ (storeStream a i l s).hold = s.hold ∧ (storeStream a i l s).mode = s.mode
      ∧ (storeStream a i l s).warning = s.warning ∧ (storeStream a i l s).holdupPin = s.holdupPin
      ∧ (storeStream a i l s).inReset = s.inReset ∧ (storeStream a i l s).lastReset = s.lastReset
      ∧ (storeStream a i l s).softResets = s.softResets ∧ (storeStream a i l s).latches = s.latches
      ∧ (storeStream a i l s).captures = s.captures ∧ (storeStream a i l s).captureLost = s.captureLost
      ∧ (storeStream a i l s).time = s.time ∧ (storeStream a i l s).pending = s.pending
      ∧ (storeStream a i l s).draws = s.draws := by
  obtain ⟨_, _, h⟩ := storeStream_changes s a i l
  simp only [h, and_self]


/-! ## storeGroup -/

theorem storeGroup_changes (a : Admin) (g : GroupId) (l : List (Byte × BitVec 64)) : ∃ gs lns bl fl, storeGroup a g l s = { s with groups := gs, lanes := lns, bLink := bl, fLink := fl } := by
  unfold storeGroup; split
  · exact ⟨_, _, _, _, rfl⟩
  · split
    · exact ⟨_, _, _, _, rfl⟩
    · dsimp only; split
      · exact ⟨_, _, _, _, rfl⟩
      · obtain ⟨_, _, h⟩ := claimLanes_changes { s with groups := s.groups.set g _ } g (s.claimed (namedLanes l _))
        exact ⟨_, _, _, _, by rw [h]; rfl⟩

@[simp] theorem storeGroup_frame (a : Admin) (g : GroupId) (l : List (Byte × BitVec 64)) :
    (storeGroup a g l s).streams = s.streams ∧ (storeGroup a g l s).classifierRun = s.classifierRun
      ∧ (storeGroup a g l s).sample = s.sample ∧ (storeGroup a g l s).sweep = s.sweep
      ∧ (storeGroup a g l s).inHand = s.inHand ∧ (storeGroup a g l s).shareCount = s.shareCount
      ∧ (storeGroup a g l s).frontTags = s.frontTags ∧ (storeGroup a g l s).relocTags = s.relocTags
      ∧ (storeGroup a g l s).settings = s.settings ∧ (storeGroup a g l s).frontQueue = s.frontQueue
      ∧ (storeGroup a g l s).fhold = s.fhold ∧ (storeGroup a g l s).relocQueue = s.relocQueue
      ∧ (storeGroup a g l s).hold = s.hold ∧ (storeGroup a g l s).mode = s.mode
      ∧ (storeGroup a g l s).warning = s.warning ∧ (storeGroup a g l s).holdupPin = s.holdupPin
      ∧ (storeGroup a g l s).inReset = s.inReset ∧ (storeGroup a g l s).lastReset = s.lastReset
      ∧ (storeGroup a g l s).softResets = s.softResets ∧ (storeGroup a g l s).latches = s.latches
      ∧ (storeGroup a g l s).captures = s.captures ∧ (storeGroup a g l s).captureLost = s.captureLost
      ∧ (storeGroup a g l s).time = s.time ∧ (storeGroup a g l s).pending = s.pending
      ∧ (storeGroup a g l s).draws = s.draws := by
  obtain ⟨_, _, _, _, h⟩ := storeGroup_changes s a g l
  simp only [h, and_self]


/-! ## drainLane -/

theorem drainLane_changes (l : LaneId) : ∃ gs lns bl, drainLane l s = { s with groups := gs, lanes := lns, bLink := bl } := by
  unfold drainLane; dsimp only
  obtain ⟨_, _, h⟩ := checkDrain_changes ((s.clearMaps l).setLane l _) l
  exact ⟨_, _, _, h⟩

@[simp] theorem drainLane_frame (l : LaneId) :
    (drainLane l s).streams = s.streams ∧ (drainLane l s).classifierRun = s.classifierRun
      ∧ (drainLane l s).sample = s.sample ∧ (drainLane l s).sweep = s.sweep ∧ (drainLane l s).inHand = s.inHand
      ∧ (drainLane l s).shareCount = s.shareCount ∧ (drainLane l s).frontTags = s.frontTags
      ∧ (drainLane l s).relocTags = s.relocTags ∧ (drainLane l s).settings = s.settings
      ∧ (drainLane l s).frontQueue = s.frontQueue ∧ (drainLane l s).fhold = s.fhold
      ∧ (drainLane l s).relocQueue = s.relocQueue ∧ (drainLane l s).fLink = s.fLink ∧ (drainLane l s).hold = s.hold
      ∧ (drainLane l s).mode = s.mode ∧ (drainLane l s).warning = s.warning
      ∧ (drainLane l s).holdupPin = s.holdupPin ∧ (drainLane l s).inReset = s.inReset
      ∧ (drainLane l s).lastReset = s.lastReset ∧ (drainLane l s).softResets = s.softResets
      ∧ (drainLane l s).latches = s.latches ∧ (drainLane l s).captures = s.captures
      ∧ (drainLane l s).captureLost = s.captureLost ∧ (drainLane l s).time = s.time
      ∧ (drainLane l s).pending = s.pending
      ∧ (drainLane l s).draws = s.draws := by
  obtain ⟨_, _, _, h⟩ := drainLane_changes s l
  simp only [h, and_self]


/-! ## requestDrain -/

theorem requestDrain_changes (a : Admin) (l : LaneId) : ∃ gs lns fl bl m, requestDrain a l s = { s with groups := gs, lanes := lns, fLink := fl, bLink := bl, mode := m } := by
  unfold requestDrain
  have key : ∀ t, ∃ gs lns fl bl m, transmitterChoice ((flushCheck (drainLane l t)).reply a .ok) =
      { t with groups := gs, lanes := lns, fLink := fl, bLink := bl, mode := m } := fun t => by
    obtain ⟨_, _, h1⟩ := transmitterChoice_changes ((flushCheck (drainLane l t)).reply a .ok)
    obtain ⟨_, _, h2⟩ := flushCheck_changes (drainLane l t)
    obtain ⟨_, _, _, h3⟩ := drainLane_changes t l
    exact ⟨_, _, _, _, _, by rw [h1, h2, h3]; rfl⟩
  split
  · exact key s
  · exact key s
  all_goals exact ⟨_, _, _, _, _, rfl⟩

@[simp] theorem requestDrain_frame (a : Admin) (l : LaneId) :
    (requestDrain a l s).streams = s.streams ∧ (requestDrain a l s).classifierRun = s.classifierRun
      ∧ (requestDrain a l s).sample = s.sample ∧ (requestDrain a l s).sweep = s.sweep
      ∧ (requestDrain a l s).inHand = s.inHand ∧ (requestDrain a l s).shareCount = s.shareCount
      ∧ (requestDrain a l s).frontTags = s.frontTags ∧ (requestDrain a l s).relocTags = s.relocTags
      ∧ (requestDrain a l s).settings = s.settings ∧ (requestDrain a l s).frontQueue = s.frontQueue
      ∧ (requestDrain a l s).fhold = s.fhold ∧ (requestDrain a l s).relocQueue = s.relocQueue
      ∧ (requestDrain a l s).hold = s.hold ∧ (requestDrain a l s).warning = s.warning
      ∧ (requestDrain a l s).holdupPin = s.holdupPin ∧ (requestDrain a l s).inReset = s.inReset
      ∧ (requestDrain a l s).lastReset = s.lastReset ∧ (requestDrain a l s).softResets = s.softResets
      ∧ (requestDrain a l s).latches = s.latches ∧ (requestDrain a l s).captures = s.captures
      ∧ (requestDrain a l s).captureLost = s.captureLost ∧ (requestDrain a l s).time = s.time
      ∧ (requestDrain a l s).pending = s.pending
      ∧ (requestDrain a l s).draws = s.draws := by
  obtain ⟨_, _, _, _, _, h⟩ := requestDrain_changes s a l
  simp only [h, and_self]


/-! ## requestStop -/

theorem requestStop_changes (a : Admin) (l : LaneId) : ∃ gs lns ft rt fl bl m, requestStop a l s = { s with groups := gs, lanes := lns, frontTags := ft, relocTags := rt, fLink := fl, bLink := bl, mode := m } := by
  unfold requestStop
  have key : ∀ t, ∃ gs lns ft rt fl bl m, (flushCheck (faultEntry l t)).reply a .ok =
      { t with groups := gs, lanes := lns, frontTags := ft, relocTags := rt, fLink := fl, bLink := bl, mode := m } :=
    fun t => by
      obtain ⟨_, _, h2⟩ := flushCheck_changes (faultEntry l t)
      obtain ⟨_, _, _, _, _, _, h3⟩ := faultEntry_changes t l
      exact ⟨_, _, _, _, _, _, _, by rw [h2, h3]; rfl⟩
  split
  · exact key s
  · exact key s
  · exact key s
  all_goals exact ⟨_, _, _, _, _, _, _, rfl⟩

@[simp] theorem requestStop_frame (a : Admin) (l : LaneId) :
    (requestStop a l s).streams = s.streams ∧ (requestStop a l s).classifierRun = s.classifierRun
      ∧ (requestStop a l s).sample = s.sample ∧ (requestStop a l s).sweep = s.sweep
      ∧ (requestStop a l s).inHand = s.inHand ∧ (requestStop a l s).shareCount = s.shareCount
      ∧ (requestStop a l s).settings = s.settings ∧ (requestStop a l s).frontQueue = s.frontQueue
      ∧ (requestStop a l s).fhold = s.fhold ∧ (requestStop a l s).relocQueue = s.relocQueue
      ∧ (requestStop a l s).hold = s.hold ∧ (requestStop a l s).warning = s.warning
      ∧ (requestStop a l s).holdupPin = s.holdupPin ∧ (requestStop a l s).inReset = s.inReset
      ∧ (requestStop a l s).lastReset = s.lastReset ∧ (requestStop a l s).softResets = s.softResets
      ∧ (requestStop a l s).latches = s.latches ∧ (requestStop a l s).captures = s.captures
      ∧ (requestStop a l s).captureLost = s.captureLost ∧ (requestStop a l s).time = s.time
      ∧ (requestStop a l s).pending = s.pending
      ∧ (requestStop a l s).draws = s.draws := by
  obtain ⟨_, _, _, _, _, _, _, h⟩ := requestStop_changes s a l
  simp only [h, and_self]


/-! ## requestClear -/

theorem requestClear_changes (a : Admin) (l : LaneId) : ∃ lns fl, requestClear a l s = { s with lanes := lns, fLink := fl } := by
  unfold requestClear; dsimp only; split
  · split
    · exact ⟨_, _, rfl⟩
    · split <;> exact ⟨_, _, rfl⟩
  · exact ⟨_, _, rfl⟩

@[simp] theorem requestClear_frame (a : Admin) (l : LaneId) :
    (requestClear a l s).streams = s.streams ∧ (requestClear a l s).classifierRun = s.classifierRun
      ∧ (requestClear a l s).sample = s.sample ∧ (requestClear a l s).sweep = s.sweep
      ∧ (requestClear a l s).groups = s.groups ∧ (requestClear a l s).inHand = s.inHand
      ∧ (requestClear a l s).shareCount = s.shareCount ∧ (requestClear a l s).frontTags = s.frontTags
      ∧ (requestClear a l s).relocTags = s.relocTags ∧ (requestClear a l s).settings = s.settings
      ∧ (requestClear a l s).frontQueue = s.frontQueue ∧ (requestClear a l s).fhold = s.fhold
      ∧ (requestClear a l s).relocQueue = s.relocQueue ∧ (requestClear a l s).bLink = s.bLink
      ∧ (requestClear a l s).hold = s.hold ∧ (requestClear a l s).mode = s.mode
      ∧ (requestClear a l s).warning = s.warning ∧ (requestClear a l s).holdupPin = s.holdupPin
      ∧ (requestClear a l s).inReset = s.inReset ∧ (requestClear a l s).lastReset = s.lastReset
      ∧ (requestClear a l s).softResets = s.softResets ∧ (requestClear a l s).latches = s.latches
      ∧ (requestClear a l s).captures = s.captures ∧ (requestClear a l s).captureLost = s.captureLost
      ∧ (requestClear a l s).time = s.time ∧ (requestClear a l s).pending = s.pending
      ∧ (requestClear a l s).draws = s.draws := by
  obtain ⟨_, _, h⟩ := requestClear_changes s a l
  simp only [h, and_self]


/-! ## settleUnit -/

theorem settleUnit_changes (p : Bool) (l : LaneId) (u : Issued) : ∃ lns ft rt fl bl m, settleUnit p l u s = { s with lanes := lns, frontTags := ft, relocTags := rt, fLink := fl, bLink := bl, mode := m } := by
  unfold settleUnit
  obtain ⟨_, _, h1⟩ := flushCheck_changes (afterUnit l (settleEntries p u.entries s))
  obtain ⟨_, _, h2⟩ := afterUnit_changes (settleEntries p u.entries s) l
  obtain ⟨_, _, _, _, h3⟩ := settleEntries_changes s p u.entries
  exact ⟨_, _, _, _, _, _, by rw [h1, h2, h3]⟩

@[simp] theorem settleUnit_frame (p : Bool) (l : LaneId) (u : Issued) :
    (settleUnit p l u s).streams = s.streams ∧ (settleUnit p l u s).classifierRun = s.classifierRun
      ∧ (settleUnit p l u s).sample = s.sample ∧ (settleUnit p l u s).sweep = s.sweep
      ∧ (settleUnit p l u s).groups = s.groups ∧ (settleUnit p l u s).inHand = s.inHand
      ∧ (settleUnit p l u s).shareCount = s.shareCount ∧ (settleUnit p l u s).settings = s.settings
      ∧ (settleUnit p l u s).frontQueue = s.frontQueue ∧ (settleUnit p l u s).fhold = s.fhold
      ∧ (settleUnit p l u s).relocQueue = s.relocQueue ∧ (settleUnit p l u s).hold = s.hold
      ∧ (settleUnit p l u s).warning = s.warning ∧ (settleUnit p l u s).holdupPin = s.holdupPin
      ∧ (settleUnit p l u s).inReset = s.inReset ∧ (settleUnit p l u s).lastReset = s.lastReset
      ∧ (settleUnit p l u s).softResets = s.softResets ∧ (settleUnit p l u s).latches = s.latches
      ∧ (settleUnit p l u s).captures = s.captures ∧ (settleUnit p l u s).captureLost = s.captureLost
      ∧ (settleUnit p l u s).time = s.time ∧ (settleUnit p l u s).pending = s.pending
      ∧ (settleUnit p l u s).draws = s.draws := by
  obtain ⟨_, _, _, _, _, _, h⟩ := settleUnit_changes s p l u
  simp only [h, and_self]


/-! ## failLane -/

theorem failLane_changes (l : LaneId) (u : Issued) : ∃ gs lns ft rt fl bl m, failLane l u s = { s with groups := gs, lanes := lns, frontTags := ft, relocTags := rt, fLink := fl, bLink := bl, mode := m } := by
  unfold failLane
  obtain ⟨_, _, h1⟩ := flushCheck_changes (faultEntry l (settleEntries false u.entries s))
  obtain ⟨_, _, _, _, _, _, h2⟩ := faultEntry_changes (settleEntries false u.entries s) l
  obtain ⟨_, _, _, _, h3⟩ := settleEntries_changes s false u.entries
  exact ⟨_, _, _, _, _, _, _, by rw [h1, h2, h3]⟩

@[simp] theorem failLane_frame (l : LaneId) (u : Issued) :
    (failLane l u s).streams = s.streams ∧ (failLane l u s).classifierRun = s.classifierRun
      ∧ (failLane l u s).sample = s.sample ∧ (failLane l u s).sweep = s.sweep ∧ (failLane l u s).inHand = s.inHand
      ∧ (failLane l u s).shareCount = s.shareCount ∧ (failLane l u s).settings = s.settings
      ∧ (failLane l u s).frontQueue = s.frontQueue ∧ (failLane l u s).fhold = s.fhold
      ∧ (failLane l u s).relocQueue = s.relocQueue ∧ (failLane l u s).hold = s.hold
      ∧ (failLane l u s).warning = s.warning ∧ (failLane l u s).holdupPin = s.holdupPin
      ∧ (failLane l u s).inReset = s.inReset ∧ (failLane l u s).lastReset = s.lastReset
      ∧ (failLane l u s).softResets = s.softResets ∧ (failLane l u s).latches = s.latches
      ∧ (failLane l u s).captures = s.captures ∧ (failLane l u s).captureLost = s.captureLost
      ∧ (failLane l u s).time = s.time ∧ (failLane l u s).pending = s.pending
      ∧ (failLane l u s).draws = s.draws := by
  obtain ⟨_, _, _, _, _, _, _, h⟩ := failLane_changes s l u
  simp only [h, and_self]


/-! ## abandonBlock -/

theorem abandonBlock_changes (l : LaneId) (u : Issued) : ∃ lns bl, abandonBlock l u s = { s with lanes := lns, bLink := bl } := by
  unfold abandonBlock
  obtain ⟨_, _, h⟩ := seekBlock_changes ((s.setLane l (s.lanes.get l).dropBlock).giveback
    (LaneId.field l) u.block .bad (some u.index)) l
  exact ⟨_, _, h⟩

@[simp] theorem abandonBlock_frame (l : LaneId) (u : Issued) :
    (abandonBlock l u s).streams = s.streams ∧ (abandonBlock l u s).classifierRun = s.classifierRun
      ∧ (abandonBlock l u s).sample = s.sample ∧ (abandonBlock l u s).sweep = s.sweep
      ∧ (abandonBlock l u s).groups = s.groups ∧ (abandonBlock l u s).inHand = s.inHand
      ∧ (abandonBlock l u s).shareCount = s.shareCount ∧ (abandonBlock l u s).frontTags = s.frontTags
      ∧ (abandonBlock l u s).relocTags = s.relocTags ∧ (abandonBlock l u s).settings = s.settings
      ∧ (abandonBlock l u s).frontQueue = s.frontQueue ∧ (abandonBlock l u s).fhold = s.fhold
      ∧ (abandonBlock l u s).relocQueue = s.relocQueue ∧ (abandonBlock l u s).fLink = s.fLink
      ∧ (abandonBlock l u s).hold = s.hold ∧ (abandonBlock l u s).mode = s.mode
      ∧ (abandonBlock l u s).warning = s.warning ∧ (abandonBlock l u s).holdupPin = s.holdupPin
      ∧ (abandonBlock l u s).inReset = s.inReset ∧ (abandonBlock l u s).lastReset = s.lastReset
      ∧ (abandonBlock l u s).softResets = s.softResets ∧ (abandonBlock l u s).latches = s.latches
      ∧ (abandonBlock l u s).captures = s.captures ∧ (abandonBlock l u s).captureLost = s.captureLost
      ∧ (abandonBlock l u s).time = s.time ∧ (abandonBlock l u s).pending = s.pending
      ∧ (abandonBlock l u s).draws = s.draws := by
  obtain ⟨_, _, h⟩ := abandonBlock_changes s l u
  simp only [h, and_self]


/-! ## requeueUnit -/

theorem requeueUnit_changes (l : LaneId) (u : Issued) (n : Nat) : ∃ lns, requeueUnit l u n s = { s with lanes := lns } := ⟨_, rfl⟩

@[simp] theorem requeueUnit_frame (l : LaneId) (u : Issued) (n : Nat) :
    (requeueUnit l u n s).streams = s.streams ∧ (requeueUnit l u n s).classifierRun = s.classifierRun
      ∧ (requeueUnit l u n s).sample = s.sample ∧ (requeueUnit l u n s).sweep = s.sweep
      ∧ (requeueUnit l u n s).groups = s.groups ∧ (requeueUnit l u n s).inHand = s.inHand
      ∧ (requeueUnit l u n s).shareCount = s.shareCount ∧ (requeueUnit l u n s).frontTags = s.frontTags
      ∧ (requeueUnit l u n s).relocTags = s.relocTags ∧ (requeueUnit l u n s).settings = s.settings
      ∧ (requeueUnit l u n s).frontQueue = s.frontQueue ∧ (requeueUnit l u n s).fhold = s.fhold
      ∧ (requeueUnit l u n s).relocQueue = s.relocQueue ∧ (requeueUnit l u n s).fLink = s.fLink
      ∧ (requeueUnit l u n s).bLink = s.bLink ∧ (requeueUnit l u n s).hold = s.hold
      ∧ (requeueUnit l u n s).mode = s.mode ∧ (requeueUnit l u n s).warning = s.warning
      ∧ (requeueUnit l u n s).holdupPin = s.holdupPin ∧ (requeueUnit l u n s).inReset = s.inReset
      ∧ (requeueUnit l u n s).lastReset = s.lastReset ∧ (requeueUnit l u n s).softResets = s.softResets
      ∧ (requeueUnit l u n s).latches = s.latches ∧ (requeueUnit l u n s).captures = s.captures
      ∧ (requeueUnit l u n s).captureLost = s.captureLost ∧ (requeueUnit l u n s).time = s.time
      ∧ (requeueUnit l u n s).pending = s.pending
      ∧ (requeueUnit l u n s).draws = s.draws := by
  obtain ⟨_, h⟩ := requeueUnit_changes s l u n
  simp only [h, and_self]


/-! ## failUnit -/

theorem failUnit_changes (l : LaneId) (u : Issued) : ∃ gs lns ft rt fl bl m, failUnit l u s = { s with groups := gs, lanes := lns, frontTags := ft, relocTags := rt, fLink := fl, bLink := bl, mode := m } := by
  unfold failUnit; dsimp only
  have hs := settleUnit_changes s false l u
  have hf := failLane_changes s l u
  obtain ⟨_, _, ha⟩ := abandonBlock_changes s l u
  obtain ⟨_, _, _, _, _, _, hs⟩ := hs
  split
  · exact ⟨_, _, _, _, _, _, _, hs⟩
  · split
    · exact hf
    · split
      · exact ⟨_, _, _, _, _, _, _, by rw [ha]; rfl⟩
      · exact ⟨_, _, _, _, _, _, _, rfl⟩

@[simp] theorem failUnit_frame (l : LaneId) (u : Issued) :
    (failUnit l u s).streams = s.streams ∧ (failUnit l u s).classifierRun = s.classifierRun
      ∧ (failUnit l u s).sample = s.sample ∧ (failUnit l u s).sweep = s.sweep ∧ (failUnit l u s).inHand = s.inHand
      ∧ (failUnit l u s).shareCount = s.shareCount ∧ (failUnit l u s).settings = s.settings
      ∧ (failUnit l u s).frontQueue = s.frontQueue ∧ (failUnit l u s).fhold = s.fhold
      ∧ (failUnit l u s).relocQueue = s.relocQueue ∧ (failUnit l u s).hold = s.hold
      ∧ (failUnit l u s).warning = s.warning ∧ (failUnit l u s).holdupPin = s.holdupPin
      ∧ (failUnit l u s).inReset = s.inReset ∧ (failUnit l u s).lastReset = s.lastReset
      ∧ (failUnit l u s).softResets = s.softResets ∧ (failUnit l u s).latches = s.latches
      ∧ (failUnit l u s).captures = s.captures ∧ (failUnit l u s).captureLost = s.captureLost
      ∧ (failUnit l u s).time = s.time ∧ (failUnit l u s).pending = s.pending
      ∧ (failUnit l u s).draws = s.draws := by
  obtain ⟨_, _, _, _, _, _, _, h⟩ := failUnit_changes s l u
  simp only [h, and_self]


/-! ## abortUnit -/

theorem abortUnit_changes (l : LaneId) (u : Issued) : ∃ gs lns ft rt fl bl m, abortUnit l u s = { s with groups := gs, lanes := lns, frontTags := ft, relocTags := rt, fLink := fl, bLink := bl, mode := m } := by
  unfold abortUnit; dsimp only
  have hs := settleUnit_changes s false l u
  have hf := failLane_changes s l u
  obtain ⟨_, _, ha⟩ := abandonBlock_changes s l u
  obtain ⟨_, _, _, _, _, _, hs⟩ := hs
  split
  · exact ⟨_, _, _, _, _, _, _, hs⟩
  · split
    · split
      · exact hf
      · exact ⟨_, _, _, _, _, _, _, by rw [ha]; rfl⟩
    · exact ⟨_, _, _, _, _, _, _, rfl⟩

@[simp] theorem abortUnit_frame (l : LaneId) (u : Issued) :
    (abortUnit l u s).streams = s.streams ∧ (abortUnit l u s).classifierRun = s.classifierRun
      ∧ (abortUnit l u s).sample = s.sample ∧ (abortUnit l u s).sweep = s.sweep
      ∧ (abortUnit l u s).inHand = s.inHand ∧ (abortUnit l u s).shareCount = s.shareCount
      ∧ (abortUnit l u s).settings = s.settings ∧ (abortUnit l u s).frontQueue = s.frontQueue
      ∧ (abortUnit l u s).fhold = s.fhold ∧ (abortUnit l u s).relocQueue = s.relocQueue
      ∧ (abortUnit l u s).hold = s.hold ∧ (abortUnit l u s).warning = s.warning
      ∧ (abortUnit l u s).holdupPin = s.holdupPin ∧ (abortUnit l u s).inReset = s.inReset
      ∧ (abortUnit l u s).lastReset = s.lastReset ∧ (abortUnit l u s).softResets = s.softResets
      ∧ (abortUnit l u s).latches = s.latches ∧ (abortUnit l u s).captures = s.captures
      ∧ (abortUnit l u s).captureLost = s.captureLost ∧ (abortUnit l u s).time = s.time
      ∧ (abortUnit l u s).pending = s.pending
      ∧ (abortUnit l u s).draws = s.draws := by
  obtain ⟨_, _, _, _, _, _, _, h⟩ := abortUnit_changes s l u
  simp only [h, and_self]


/-! ## timeoutUnit -/

theorem timeoutUnit_changes (l : LaneId) (u : Issued) : ∃ gs lns ft rt fl bl m xs cs cl, timeoutUnit l u s = { s with groups := gs, lanes := lns, frontTags := ft, relocTags := rt, fLink := fl, bLink := bl, mode := m, latches := xs, captures := cs, captureLost := cl } := by
  unfold timeoutUnit; dsimp only
  obtain ⟨_, _, _, _, h1⟩ := settleEntries_changes s false u.entries
  obtain ⟨_, _, h2⟩ := takeCapture_changes ((settleEntries false u.entries s).raise .resultTimeout)
    .resultTimeout l u
  generalize hx : takeCapture .resultTimeout l u ((settleEntries false u.entries s).raise .resultTimeout) = t at *
  rw [h1] at h2
  obtain ⟨_, _, h3⟩ := flushCheck_changes (if (t.lanes.get l).state = .opened ∨ (t.lanes.get l).state = .draining
    then faultEntry l t else if (t.lanes.get l).state = .fault then faultedHandback l t else t)
  rw [h3]
  split
  · obtain ⟨_, _, _, _, _, _, h4⟩ := faultEntry_changes t l
    exact ⟨_, _, _, _, _, _, _, _, _, _, by rw [h4, h2]; rfl⟩
  · split
    · obtain ⟨_, _, h4⟩ := faultedHandback_changes t l
      exact ⟨_, _, _, _, _, _, _, _, _, _, by rw [h4, h2]; rfl⟩
    · exact ⟨_, _, _, _, _, _, _, _, _, _, by rw [h2]; rfl⟩

@[simp] theorem timeoutUnit_frame (l : LaneId) (u : Issued) :
    (timeoutUnit l u s).streams = s.streams ∧ (timeoutUnit l u s).classifierRun = s.classifierRun
      ∧ (timeoutUnit l u s).sample = s.sample ∧ (timeoutUnit l u s).sweep = s.sweep
      ∧ (timeoutUnit l u s).inHand = s.inHand ∧ (timeoutUnit l u s).shareCount = s.shareCount
      ∧ (timeoutUnit l u s).settings = s.settings ∧ (timeoutUnit l u s).frontQueue = s.frontQueue
      ∧ (timeoutUnit l u s).fhold = s.fhold ∧ (timeoutUnit l u s).relocQueue = s.relocQueue
      ∧ (timeoutUnit l u s).hold = s.hold ∧ (timeoutUnit l u s).warning = s.warning
      ∧ (timeoutUnit l u s).holdupPin = s.holdupPin ∧ (timeoutUnit l u s).inReset = s.inReset
      ∧ (timeoutUnit l u s).lastReset = s.lastReset ∧ (timeoutUnit l u s).softResets = s.softResets
      ∧ (timeoutUnit l u s).time = s.time ∧ (timeoutUnit l u s).pending = s.pending
      ∧ (timeoutUnit l u s).draws = s.draws := by
  obtain ⟨_, _, _, _, _, _, _, _, _, _, h⟩ := timeoutUnit_changes s l u
  simp only [h, and_self]


/-! ## refuseGrant -/

theorem refuseGrant_changes (x : LaneField) (b : BlockAddr) (r : GivebackReason) : ∃ bl xs, refuseGrant x b r s = { s with bLink := bl, latches := xs } := ⟨_, _, rfl⟩

@[simp] theorem refuseGrant_frame (x : LaneField) (b : BlockAddr) (r : GivebackReason) :
    (refuseGrant x b r s).streams = s.streams ∧ (refuseGrant x b r s).classifierRun = s.classifierRun
      ∧ (refuseGrant x b r s).sample = s.sample ∧ (refuseGrant x b r s).sweep = s.sweep
      ∧ (refuseGrant x b r s).groups = s.groups ∧ (refuseGrant x b r s).inHand = s.inHand
      ∧ (refuseGrant x b r s).shareCount = s.shareCount ∧ (refuseGrant x b r s).frontTags = s.frontTags
      ∧ (refuseGrant x b r s).relocTags = s.relocTags ∧ (refuseGrant x b r s).lanes = s.lanes
      ∧ (refuseGrant x b r s).settings = s.settings ∧ (refuseGrant x b r s).frontQueue = s.frontQueue
      ∧ (refuseGrant x b r s).fhold = s.fhold ∧ (refuseGrant x b r s).relocQueue = s.relocQueue
      ∧ (refuseGrant x b r s).fLink = s.fLink ∧ (refuseGrant x b r s).hold = s.hold
      ∧ (refuseGrant x b r s).mode = s.mode ∧ (refuseGrant x b r s).warning = s.warning
      ∧ (refuseGrant x b r s).holdupPin = s.holdupPin ∧ (refuseGrant x b r s).inReset = s.inReset
      ∧ (refuseGrant x b r s).lastReset = s.lastReset ∧ (refuseGrant x b r s).softResets = s.softResets
      ∧ (refuseGrant x b r s).captures = s.captures ∧ (refuseGrant x b r s).captureLost = s.captureLost
      ∧ (refuseGrant x b r s).time = s.time ∧ (refuseGrant x b r s).pending = s.pending
      ∧ (refuseGrant x b r s).draws = s.draws := by
  obtain ⟨_, _, h⟩ := refuseGrant_changes s x b r
  simp only [h, and_self]


/-! ## acceptGrant -/

theorem acceptGrant_changes (l : LaneId) (b : BlockAddr) : ∃ lns bl, acceptGrant l b s = { s with lanes := lns, bLink := bl } := by
  unfold acceptGrant
  obtain ⟨_, _, h⟩ := seekBlock_changes (s.setLane l
    { s.lanes.get l with reserve := b :: (s.lanes.get l).reserve, want := false }) l
  exact ⟨_, _, h⟩

@[simp] theorem acceptGrant_frame (l : LaneId) (b : BlockAddr) :
    (acceptGrant l b s).streams = s.streams ∧ (acceptGrant l b s).classifierRun = s.classifierRun
      ∧ (acceptGrant l b s).sample = s.sample ∧ (acceptGrant l b s).sweep = s.sweep
      ∧ (acceptGrant l b s).groups = s.groups ∧ (acceptGrant l b s).inHand = s.inHand
      ∧ (acceptGrant l b s).shareCount = s.shareCount ∧ (acceptGrant l b s).frontTags = s.frontTags
      ∧ (acceptGrant l b s).relocTags = s.relocTags ∧ (acceptGrant l b s).settings = s.settings
      ∧ (acceptGrant l b s).frontQueue = s.frontQueue ∧ (acceptGrant l b s).fhold = s.fhold
      ∧ (acceptGrant l b s).relocQueue = s.relocQueue ∧ (acceptGrant l b s).fLink = s.fLink
      ∧ (acceptGrant l b s).hold = s.hold ∧ (acceptGrant l b s).mode = s.mode
      ∧ (acceptGrant l b s).warning = s.warning ∧ (acceptGrant l b s).holdupPin = s.holdupPin
      ∧ (acceptGrant l b s).inReset = s.inReset ∧ (acceptGrant l b s).lastReset = s.lastReset
      ∧ (acceptGrant l b s).softResets = s.softResets ∧ (acceptGrant l b s).latches = s.latches
      ∧ (acceptGrant l b s).captures = s.captures ∧ (acceptGrant l b s).captureLost = s.captureLost
      ∧ (acceptGrant l b s).time = s.time ∧ (acceptGrant l b s).pending = s.pending
      ∧ (acceptGrant l b s).draws = s.draws := by
  obtain ⟨_, _, h⟩ := acceptGrant_changes s l b
  simp only [h, and_self]


/-! ## takeGrant -/

theorem takeGrant_changes (x : LaneField) (b : BlockAddr) : ∃ lns bl xs, takeGrant x b s = { s with lanes := lns, bLink := bl, latches := xs } := by
  unfold takeGrant
  split
  · exact ⟨_, _, _, rfl⟩
  · split
    · exact ⟨_, _, _, rfl⟩
    · split
      · exact ⟨_, _, _, rfl⟩
      · split
        · exact ⟨_, _, _, rfl⟩
        · obtain ⟨_, _, h⟩ := acceptGrant_changes s _ b
          exact ⟨_, _, _, h⟩

@[simp] theorem takeGrant_frame (x : LaneField) (b : BlockAddr) :
    (takeGrant x b s).streams = s.streams ∧ (takeGrant x b s).classifierRun = s.classifierRun
      ∧ (takeGrant x b s).sample = s.sample ∧ (takeGrant x b s).sweep = s.sweep
      ∧ (takeGrant x b s).groups = s.groups ∧ (takeGrant x b s).inHand = s.inHand
      ∧ (takeGrant x b s).shareCount = s.shareCount ∧ (takeGrant x b s).frontTags = s.frontTags
      ∧ (takeGrant x b s).relocTags = s.relocTags ∧ (takeGrant x b s).settings = s.settings
      ∧ (takeGrant x b s).frontQueue = s.frontQueue ∧ (takeGrant x b s).fhold = s.fhold
      ∧ (takeGrant x b s).relocQueue = s.relocQueue ∧ (takeGrant x b s).fLink = s.fLink
      ∧ (takeGrant x b s).hold = s.hold ∧ (takeGrant x b s).mode = s.mode ∧ (takeGrant x b s).warning = s.warning
      ∧ (takeGrant x b s).holdupPin = s.holdupPin ∧ (takeGrant x b s).inReset = s.inReset
      ∧ (takeGrant x b s).lastReset = s.lastReset ∧ (takeGrant x b s).softResets = s.softResets
      ∧ (takeGrant x b s).captures = s.captures ∧ (takeGrant x b s).captureLost = s.captureLost
      ∧ (takeGrant x b s).time = s.time ∧ (takeGrant x b s).pending = s.pending
      ∧ (takeGrant x b s).draws = s.draws := by
  obtain ⟨_, _, _, h⟩ := takeGrant_changes s x b
  simp only [h, and_self]


/-! ## handBackAll -/

theorem handBackAll_changes : ∃ bl, handBackAll s = { s with bLink := bl } := by
  unfold handBackAll
  generalize allLanes = ls
  suffices h : ∀ t : State, ∃ b, ls.foldl (fun t l => givebackAll l .reset (s.lanes.get l).blocks t) t =
      { t with bLink := b } from h s
  induction ls with
  | nil => exact fun t => ⟨_, rfl⟩
  | cons l ls ih =>
    intro t
    obtain ⟨_, h1⟩ := givebackAll_changes t l .reset (s.lanes.get l).blocks
    obtain ⟨_, h2⟩ := ih (givebackAll l .reset (s.lanes.get l).blocks t)
    exact ⟨_, by rw [List.foldl_cons, h2, h1]⟩

@[simp] theorem handBackAll_frame :
    (handBackAll s).streams = s.streams ∧ (handBackAll s).classifierRun = s.classifierRun
      ∧ (handBackAll s).sample = s.sample ∧ (handBackAll s).sweep = s.sweep ∧ (handBackAll s).groups = s.groups
      ∧ (handBackAll s).inHand = s.inHand ∧ (handBackAll s).shareCount = s.shareCount
      ∧ (handBackAll s).frontTags = s.frontTags ∧ (handBackAll s).relocTags = s.relocTags
      ∧ (handBackAll s).lanes = s.lanes ∧ (handBackAll s).settings = s.settings
      ∧ (handBackAll s).frontQueue = s.frontQueue ∧ (handBackAll s).fhold = s.fhold
      ∧ (handBackAll s).relocQueue = s.relocQueue ∧ (handBackAll s).fLink = s.fLink ∧ (handBackAll s).hold = s.hold
      ∧ (handBackAll s).mode = s.mode ∧ (handBackAll s).warning = s.warning
      ∧ (handBackAll s).holdupPin = s.holdupPin ∧ (handBackAll s).inReset = s.inReset
      ∧ (handBackAll s).lastReset = s.lastReset ∧ (handBackAll s).softResets = s.softResets
      ∧ (handBackAll s).latches = s.latches ∧ (handBackAll s).captures = s.captures
      ∧ (handBackAll s).captureLost = s.captureLost ∧ (handBackAll s).time = s.time
      ∧ (handBackAll s).pending = s.pending
      ∧ (handBackAll s).draws = s.draws := by
  obtain ⟨_, h⟩ := handBackAll_changes s
  simp only [h, and_self]


/-! ## holdAfterSend -/

theorem holdAfterSend_changes (r : BRecord) : ∃ bl h, holdAfterSend r s = { s with bLink := bl, hold := h } := by
  unfold holdAfterSend; split
  · split <;> exact ⟨_, _, rfl⟩
  · split <;> exact ⟨_, _, rfl⟩
  · exact ⟨_, _, rfl⟩

@[simp] theorem holdAfterSend_frame (r : BRecord) :
    (holdAfterSend r s).streams = s.streams ∧ (holdAfterSend r s).classifierRun = s.classifierRun
      ∧ (holdAfterSend r s).sample = s.sample ∧ (holdAfterSend r s).sweep = s.sweep
      ∧ (holdAfterSend r s).groups = s.groups ∧ (holdAfterSend r s).inHand = s.inHand
      ∧ (holdAfterSend r s).shareCount = s.shareCount ∧ (holdAfterSend r s).frontTags = s.frontTags
      ∧ (holdAfterSend r s).relocTags = s.relocTags ∧ (holdAfterSend r s).lanes = s.lanes
      ∧ (holdAfterSend r s).settings = s.settings ∧ (holdAfterSend r s).frontQueue = s.frontQueue
      ∧ (holdAfterSend r s).fhold = s.fhold ∧ (holdAfterSend r s).relocQueue = s.relocQueue
      ∧ (holdAfterSend r s).fLink = s.fLink ∧ (holdAfterSend r s).mode = s.mode
      ∧ (holdAfterSend r s).warning = s.warning ∧ (holdAfterSend r s).holdupPin = s.holdupPin
      ∧ (holdAfterSend r s).inReset = s.inReset ∧ (holdAfterSend r s).lastReset = s.lastReset
      ∧ (holdAfterSend r s).softResets = s.softResets ∧ (holdAfterSend r s).latches = s.latches
      ∧ (holdAfterSend r s).captures = s.captures ∧ (holdAfterSend r s).captureLost = s.captureLost
      ∧ (holdAfterSend r s).time = s.time ∧ (holdAfterSend r s).pending = s.pending
      ∧ (holdAfterSend r s).draws = s.draws := by
  obtain ⟨_, _, h⟩ := holdAfterSend_changes s r
  simp only [h, and_self]


/-! ## clearLatches -/

theorem clearLatches_changes (z : BitVec 11) : ∃ xs, clearLatches z s = { s with latches := xs } := ⟨_, rfl⟩

@[simp] theorem clearLatches_frame (z : BitVec 11) :
    (clearLatches z s).streams = s.streams ∧ (clearLatches z s).classifierRun = s.classifierRun
      ∧ (clearLatches z s).sample = s.sample ∧ (clearLatches z s).sweep = s.sweep
      ∧ (clearLatches z s).groups = s.groups ∧ (clearLatches z s).inHand = s.inHand
      ∧ (clearLatches z s).shareCount = s.shareCount ∧ (clearLatches z s).frontTags = s.frontTags
      ∧ (clearLatches z s).relocTags = s.relocTags ∧ (clearLatches z s).lanes = s.lanes
      ∧ (clearLatches z s).settings = s.settings ∧ (clearLatches z s).frontQueue = s.frontQueue
      ∧ (clearLatches z s).fhold = s.fhold ∧ (clearLatches z s).relocQueue = s.relocQueue
      ∧ (clearLatches z s).fLink = s.fLink ∧ (clearLatches z s).bLink = s.bLink ∧ (clearLatches z s).hold = s.hold
      ∧ (clearLatches z s).mode = s.mode ∧ (clearLatches z s).warning = s.warning
      ∧ (clearLatches z s).holdupPin = s.holdupPin ∧ (clearLatches z s).inReset = s.inReset
      ∧ (clearLatches z s).lastReset = s.lastReset ∧ (clearLatches z s).softResets = s.softResets
      ∧ (clearLatches z s).captures = s.captures ∧ (clearLatches z s).captureLost = s.captureLost
      ∧ (clearLatches z s).time = s.time ∧ (clearLatches z s).pending = s.pending
      ∧ (clearLatches z s).draws = s.draws := by
  obtain ⟨_, h⟩ := clearLatches_changes s z
  simp only [h, and_self]


/-! ## softResetState -/

theorem softResetState_changes : ∃ lns gs ft rt rq sc xs cs cl h sw cr m lr sr bl, softResetState s = { s with lanes := lns, groups := gs, frontTags := ft, relocTags := rt, relocQueue := rq, shareCount := sc, latches := xs, captures := cs, captureLost := cl, hold := h, sweep := sw, classifierRun := cr, mode := m, lastReset := lr, softResets := sr, bLink := bl } := by
  unfold softResetState
  obtain ⟨_, h⟩ := handBackAll_changes s
  exact ⟨_, _, _, _, _, _, _, _, _, _, _, _, _, _, _, _, by rw [h]⟩

@[simp] theorem softResetState_frame :
    (softResetState s).streams = s.streams ∧ (softResetState s).sample = s.sample
      ∧ (softResetState s).inHand = s.inHand ∧ (softResetState s).settings = s.settings
      ∧ (softResetState s).frontQueue = s.frontQueue ∧ (softResetState s).fhold = s.fhold
      ∧ (softResetState s).fLink = s.fLink ∧ (softResetState s).warning = s.warning
      ∧ (softResetState s).holdupPin = s.holdupPin ∧ (softResetState s).inReset = s.inReset
      ∧ (softResetState s).time = s.time ∧ (softResetState s).pending = s.pending
      ∧ (softResetState s).draws = s.draws := by
  obtain ⟨_, _, _, _, _, _, _, _, _, _, _, _, _, _, _, _, h⟩ := softResetState_changes s
  simp only [h, and_self]


/-! ## Fields that are changed outright -/

@[simp] theorem softResetState_values :
    (softResetState s).lanes = .replicate 48 Lane.reset
      ∧ (softResetState s).groups = s.groups.map (fun g => { g with laneMap := Group.noLanes })
      ∧ (softResetState s).frontTags = .replicate 4096 TagRecord.reset
      ∧ (softResetState s).relocTags = .replicate 512 TagRecord.reset
      ∧ (softResetState s).relocQueue = [] ∧ (softResetState s).shareCount = 0
      ∧ (softResetState s).latches = 0 ∧ (softResetState s).captures = []
      ∧ (softResetState s).captureLost = false ∧ (softResetState s).hold = .free
      ∧ (softResetState s).sweep = Sweep.reset ∧ (softResetState s).classifierRun = 0
      ∧ (softResetState s).mode = .run ∧ (softResetState s).lastReset = .soft
      ∧ (softResetState s).softResets = min (s.softResets + 1) 65535
      ∧ (softResetState s).bLink = { (handBackAll s).bLink with lastServed := 47 } :=
  ⟨rfl, by simp [softResetState], rfl, rfl, rfl, rfl, rfl, rfl, rfl, rfl, rfl, rfl, rfl, rfl,
    by simp [softResetState], rfl⟩

/-- The captures after a timeout are those after its one capture (R133, R159). -/
@[simp] theorem timeoutUnit_captures (l : LaneId) (u : Issued) :
    (timeoutUnit l u s).captures = (takeCapture .resultTimeout l u s).captures
      ∧ (timeoutUnit l u s).captureLost = (takeCapture .resultTimeout l u s).captureLost := by
  have key : ∀ t : State, t.captures = s.captures → t.captureLost = s.captureLost → t.time = s.time →
      (takeCapture .resultTimeout l u t).captures = (takeCapture .resultTimeout l u s).captures
        ∧ (takeCapture .resultTimeout l u t).captureLost = (takeCapture .resultTimeout l u s).captureLost := by
    intro t h1 h2 h3
    simp only [takeCapture, h1, h3]
    split <;> simp [h2]
  have k := key ((settleEntries false u.entries s).raise .resultTimeout) (by simp) (by simp) (by simp)
  unfold timeoutUnit
  dsimp only
  rw [← k.1, ← k.2]
  split
  · simp
  · split <;> simp

theorem takeCapture_length (k : CaptureKind) (l : LaneId) (u : Issued) (h : s.captures.length ≤ 2) :
    (takeCapture k l u s).captures.length ≤ 2 := by
  unfold takeCapture
  split
  · next hc => simp only [List.length_append, List.length_singleton]; exact hc
  · exact h

end Sys2Proof.Machine
end

