-- ==== Sys2Proof/Laws/Effect.lean ====
section
/-! SUPPORT. What a command can do to the working part, said once: every command answers a next state, and
that state is the one before, or a reset's, or one of the effects below with the live level sources
latched. -/

namespace Sys2Proof.Machine
open Host (Outcome)

/-- The effects of the commands on the working part, before the level sources are latched. Each stands
with the condition under which its command is due. -/
inductive Effect (s : State) : State → Prop
  | holdupAsserted (h : s.mode = .run) : Effect s (beginFlush { s with holdupPin := true })
  | holdupRecorded (h : s.mode ≠ .run) : Effect s { s with holdupPin := true, warning := true }
  | holdupDeasserted :
      Effect s { s with holdupPin := false, warning := false, mode := if s.mode = .flushed then .run else s.mode }
  | sampleTick (h : s.sampleDue = true) :
      Effect s (sweepTick { s with sample := { count := 0, length := s.settings.period } })
  | visit (h : s.portServesVisit = true) :
      Effect s { s.setStream s.sweep.position ((s.streams.get s.sweep.position).visit s.settings) with
        classifierRun := 0, sweep := s.sweep.afterVisit }
  | sealAge (l : LaneId) (h : (s.lanes.get l).sealAge = some 0) :
      Effect s (transmitterChoice (s.setLane l
        (Lane.sealOrFlag s.settings.unitSize { s.lanes.get l with sealAge := none })))
  | timeout (l : LaneId) (n : Nat) (u : Issued) (rest : List Issued)
      (h : takeDue n (s.lanes.get l).outstanding = some (u, rest)) :
      Effect s (timeoutUnit l u (s.setLane l { s.lanes.get l with outstanding := rest }))
  | residency (l : LaneId) (h : (s.lanes.get l).residency = .running 0) :
      Effect s (s.setLane l { s.lanes.get l with residency := .elapsed })
  | malformed : Effect s (s.raise .linkFormat)
  | frontArrival (r : FrontRec) (h : s.frontQueue.length < 256) (hw : ∀ w, r = .write w → 1 ≤ w.length) :
      Effect s { s with frontQueue := s.frontQueue ++ [r],
                        fhold := fholdAfter s.fhold (s.frontQueue.length + 1) }
  | writeFull (w : WriteRec) (h : 256 ≤ s.frontQueue.length) : Effect s (refuseWrite w .queueFull s)
  | adminFull (a : Admin) (h : 256 ≤ s.frontQueue.length) : Effect s (s.reply a .full)
  | relocArrival (x : RelocateRec) (h : s.relocQueue.length < 64) (hx : 1 ≤ x.sectors.length) :
      Effect s { s with relocQueue := s.relocQueue ++ [x] }
  | relocFull (x : RelocateRec) (h : 64 ≤ s.relocQueue.length) : Effect s (refuseRelocate x .queueFull s)
  | writePower (w : WriteRec) (h : s.nextFront = some (.write w)) (hm : s.mode ≠ .run) :
      Effect s (refuseWrite w .power s.takeFront)
  | writeTag (w : WriteRec) (h : s.nextFront = some (.write w)) (hm : s.mode = .run)
      (ht : (s.frontTags.get w.tag).inUse = true) : Effect s (refuseWrite w .tagInUse s.takeFront)
  | writeInHand (w : WriteRec) (h : s.nextFront = some (.write w)) (hm : s.mode = .run)
      (ht : (s.frontTags.get w.tag).inUse = false) :
      Effect s { s.takeFront with inHand := some (.write w) }
  | writeLate (w : WriteRec) (h : s.inHand = some (.write w)) (hm : s.mode ≠ .run) :
      Effect s (refuseWrite w .power { s with inHand := none })
  | writeClassified (w : WriteRec) (h : s.inHand = some (.write w)) (hm : s.mode = .run)
      (hp : s.portServesClassifier = true) :
      Effect s (transmitterChoice (classifyWrite w (State.countAccess { s with inHand := none })))
  | relocPower (x : RelocateRec) (h : s.nextReloc = some x) (hm : s.mode ≠ .run) :
      Effect s (refuseRelocate x .power s.takeReloc)
  | relocTag (x : RelocateRec) (h : s.nextReloc = some x) (hm : s.mode = .run)
      (ht : (s.relocTags.get x.tag).inUse = true) : Effect s (refuseRelocate x .tagInUse s.takeReloc)
  | relocInHand (x : RelocateRec) (h : s.nextReloc = some x) (hm : s.mode = .run)
      (ht : (s.relocTags.get x.tag).inUse = false) :
      Effect s { s.takeReloc with inHand := some (.relocate x) }
  | relocLate (x : RelocateRec) (h : s.inHand = some (.relocate x)) (hm : s.mode ≠ .run) :
      Effect s (refuseRelocate x .power { s with inHand := none })
  | relocClassified (x : RelocateRec) (h : s.inHand = some (.relocate x)) (hm : s.mode = .run)
      (hp : s.portServesClassifier = true) :
      Effect s (transmitterChoice (classifyRelocate x (State.countAccess { s with inHand := none })))
  | answered (a : Admin) (st : Status) (d : ReplyData) (h : s.nextFront = some (.admin a)) :
      Effect s (s.takeFront.reply a st d)
  | streamWaits (a : Admin) (h : s.nextFront = some (.admin a)) (hp : s.portServesClassifier = false) :
      Effect s { s.takeFront with inHand := some (.streamAdmin a) }
  | streamRead (a : Admin) (st : Status) (d : ReplyData) (h : s.nextFront = some (.admin a))
      (hp : s.portServesClassifier = true) : Effect s (s.takeFront.countAccess.reply a st d)
  | streamReadLate (a : Admin) (st : Status) (d : ReplyData) (h : s.inHand = some (.streamAdmin a))
      (hp : s.portServesClassifier = true) :
      Effect s ((State.countAccess { s with inHand := none }).reply a st d)
  | lateBadIndex (a : Admin) (h : s.inHand = some (.streamAdmin a)) :
      Effect s (State.reply { s with inHand := none } a .badIndex)
  | streamWrite (a : Admin) (i : StreamId) (l : List (Byte × BitVec 64))
      (h : s.nextFront = some (.admin a)) (hp : s.portServesClassifier = true) :
      Effect s (storeStream a i l s.takeFront.countAccess)
  | streamWriteLate (a : Admin) (i : StreamId) (l : List (Byte × BitVec 64))
      (h : s.inHand = some (.streamAdmin a)) (hp : s.portServesClassifier = true) :
      Effect s (storeStream a i l (State.countAccess { s with inHand := none }))
  | groupWrite (a : Admin) (g : GroupId) (l : List (Byte × BitVec 64)) (h : s.nextFront = some (.admin a)) :
      Effect s (transmitterChoice (storeGroup a g l s.takeFront))
  | settingsWrite (a : Admin) (l : List (Byte × BitVec 64)) (h : s.nextFront = some (.admin a)) :
      Effect s (State.reply { s.takeFront with settings := (Machine.settingsWrite s.takeFront l).2 } a
        (Machine.settingsWrite s.takeFront l).1)
  | drain (a : Admin) (l : LaneId) (h : s.nextFront = some (.admin a)) :
      Effect s (requestDrain a l s.takeFront)
  | stop (a : Admin) (l : LaneId) (h : s.nextFront = some (.admin a)) :
      Effect s (requestStop a l s.takeFront)
  | clear (a : Admin) (l : LaneId) (h : s.nextFront = some (.admin a)) :
      Effect s (requestClear a l s.takeFront)
  | conditionClear (a : Admin) (x : BitVec 11) (h : s.nextFront = some (.admin a)) :
      Effect s ((clearLatches x s.takeFront).reply a .ok (.latches (clearLatches x s.takeFront).latches))
  | captureTake (a : Admin) (d : ReplyData) (h : s.nextFront = some (.admin a)) :
      Effect s { s.takeFront.reply a .ok d with captures := s.captures.tail, captureLost := false }
  | softReset (a : Admin) (h : s.nextFront = some (.admin a)) :
      Effect s ((softResetState s.takeFront).reply a .ok)
  | unmatched : Effect s (s.raise .unmatchedResult)
  | resultOk (l : LaneId) (u : Issued) (rest : List Issued) (b : BlockAddr) (i : Nat)
      (hs : (s.lanes.get l).state ≠ .closed ∧ (s.lanes.get l).state ≠ .opening)
      (h : takeMatch b i (s.lanes.get l).outstanding = some (u, rest)) :
      Effect s (transmitterChoice (settleUnit true l u
        (s.setLane l { s.lanes.get l with outstanding := rest })))
  | resultFail (l : LaneId) (u : Issued) (rest : List Issued) (b : BlockAddr) (i : Nat)
      (hs : (s.lanes.get l).state ≠ .closed ∧ (s.lanes.get l).state ≠ .opening)
      (h : takeMatch b i (s.lanes.get l).outstanding = some (u, rest)) :
      Effect s (transmitterChoice (failUnit l u (takeCapture .programFail l u
        ((s.setLane l { s.lanes.get l with outstanding := rest }).raise .programFail))))
  | resultAborted (l : LaneId) (u : Issued) (rest : List Issued) (b : BlockAddr) (i : Nat)
      (hs : (s.lanes.get l).state ≠ .closed ∧ (s.lanes.get l).state ≠ .opening)
      (h : takeMatch b i (s.lanes.get l).outstanding = some (u, rest)) :
      Effect s (transmitterChoice (abortUnit l u
        (s.setLane l { s.lanes.get l with outstanding := rest })))
  | grant (x : LaneField) (b : BlockAddr) : Effect s (transmitterChoice (takeGrant x b s))
  | holdViolated : Effect s (s.raise .holdProtocol)
  | holdOnStopping (h : s.hold = .free) (hp : s.bLink.sendsProgram = true) :
      Effect s { s with hold := .stopping }
  | holdOnHeld (h : s.hold = .free) (hp : s.bLink.sendsProgram = false) :
      Effect s (State.createB { s with hold := .held } .holdAck)
  | holdOffReleasing (h : s.hold ≠ .free) : Effect s { s with hold := .releasing }
  | holdOffFree (h : s.hold = .held) (hp : s.bLink.ackWaits = false) :
      Effect s (transmitterChoice (State.createB { s with hold := .free } .holdClear))
  | bSendEnd (r : BRecord) (h : s.bLink.sending = some r) :
      Effect s (transmitterChoice (holdAfterSend r { s with bLink := { s.bLink with sending := none } }))
  | fSendEnd (r : FRecord) (h : s.fLink.sending = some r) :
      Effect s { s with fLink := FLink.advance { s.fLink with sending := none } }
  | warningTaken (h : s.warningDue = true) : Effect s (beginFlush s)

/-- What a command leaves of a state: the state itself, a reset's state, the start of work, the level of
HOLDUP_N recorded while held in reset, or an effect with the live level sources latched. -/
inductive After (s : State) : State → Prop
  | same : After s s
  | powerOn : After s (heldState s .powerOn 0)
  | lineReset : After s (heldState s .line s.softResets)
  | start (h : s.inReset = true) (hp : s.holdupPin = false) :
      After s (State.latchLevels { s with inReset := false, warning := false })
  | startFlush (h : s.inReset = true) (hp : s.holdupPin = true) :
      After s (beginFlush { s with inReset := false, warning := true }).latchLevels
  | pin (b : Bool) (h : s.inReset = true) : After s { s with holdupPin := b }
  | effect (t : State) (hr : s.inReset = false) (h : Effect s t) : After s t.latchLevels

/-- A step of the working part that is due or not due. -/
theorem commit_after {s t : State} {r : Option State} (hr : ∀ u, r = some u → Effect s u)
    (h : commit s r = .next t) : After s t := by
  unfold commit at h
  split at h
  · cases h; exact .same
  · next hx =>
    split at h
    · cases h; exact .effect _ (by simpa using hx) (hr _ rfl)
    · cases h; exact .same

theorem onAdmin_some {s u : State} {f : Admin → State → Option State} (h : onAdmin s f = some u) :
    ∃ a, s.nextFront = some (.admin a) ∧ f a s.takeFront = some u := by
  unfold onAdmin at h
  split at h
  · exact ⟨_, by assumption, h⟩
  · cases h

theorem readTable_some {s u : State} {t : TableName} {look : State → Nat → ReplyData}
    (h : readTable s t look = some u) : Effect s u := by
  obtain ⟨a, ha, h⟩ := onAdmin_some h
  split at h
  · split at h
    · cases h; split <;> exact .answered _ _ _ ha
    · cases h
  · cases h

theorem onLaneRequest_some {s u : State} {act : LaneAction} {f : Admin → LaneId → State → State}
    (hf : ∀ a l, s.nextFront = some (.admin a) → Effect s (f a l s.takeFront))
    (h : onLaneRequest s act f = some u) : Effect s u := by
  obtain ⟨a, ha, h⟩ := onAdmin_some h
  split at h
  · split at h
    · cases h
      split
      · exact .answered _ _ _ ha
      · exact hf _ _ ha
    · cases h
  · cases h

theorem streamRequest_some {s s' : State} {a : Admin} (h : s.streamRequest = some (a, s')) :
    (s.inHand = some (.streamAdmin a) ∧ s' = { s with inHand := none })
      ∨ (s.inHand = none ∧ s.nextFront = some (.admin a) ∧ s' = s.takeFront) := by
  unfold State.streamRequest at h
  split at h
  · cases h; exact .inl ⟨by assumption, rfl⟩
  · cases h
  · split at h
    · cases h; exact .inr ⟨by assumption, by assumption, rfl⟩
    · cases h

theorem onResult_effect {s : State} (f : LaneField) (b : BlockAddr) (i : Fin 2048)
    (k : LaneId → Issued → State → State)
    (hk : ∀ l u rest, (s.lanes.get l).state ≠ .closed ∧ (s.lanes.get l).state ≠ .opening →
      takeMatch b i.val (s.lanes.get l).outstanding = some (u, rest) →
      Effect s (transmitterChoice (k l u (s.setLane l { s.lanes.get l with outstanding := rest })))) :
    Effect s (onResult f b i k s) := by
  unfold onResult
  split
  · exact .unmatched
  · dsimp only
    split
    · exact .unmatched
    · next hs =>
      split
      · exact .unmatched
      · exact hk _ _ _ (by simpa [not_or] using hs) (by assumption)

theorem parseWrite_length {bs : List Byte} {w : WriteRec} (h : parseWrite bs = some w) :
    1 ≤ w.length ∧ w.length ≤ 32 := by
  unfold parseWrite at h
  split at h
  · split at h
    · split at h
      · split at h
        · cases h; assumption
        · cases h
      · cases h
    · cases h
  · cases h

theorem parseSectors_length {c : Nat} {bs : List Byte} {l : List (Lba × Handle)}
    (h : parseSectors c bs = some l) : l.length = c := by
  induction c generalizing bs l with
  | zero =>
    unfold parseSectors at h
    split at h <;> cases h; rfl
  | succ c ih =>
    unfold parseSectors at h
    split at h
    · obtain ⟨x, hx, rfl⟩ := Option.map_eq_some_iff.mp h
      simp [ih hx]
    · cases h

theorem parseRelocate_count {bs : List Byte} {x : RelocateRec} (h : parseRelocate bs = some x) :
    1 ≤ x.sectors.length ∧ x.sectors.length ≤ 8 := by
  unfold parseRelocate at h
  split at h
  · split at h
    · split at h
      · obtain ⟨l, hl, rfl⟩ := Option.map_eq_some_iff.mp h
        rw [parseSectors_length hl]; assumption
      · cases h
    · cases h
  · cases h

/-- Every command answers a next state, and this is what that state can be. -/
theorem exec_after (c : Instr) (s : State) : ∃ t, exec c s = .next t ∧ After s t := by
  suffices h : (∃ t, exec c s = .next t) ∧ ∀ t, exec c s = .next t → After s t by
    obtain ⟨⟨t, ht⟩, h⟩ := h; exact ⟨t, ht, h t ht⟩
  constructor
  · cases c <;> exact ⟨_, rfl⟩
  · intro t h
    cases c <;> simp only [exec] at h
    case powerOn => cases h; exact .powerOn
    case lineReset => cases h; exact .lineReset
    case resetEnd =>
      simp only [execResetEnd] at h
      split at h
      · next hr =>
        split at h
        · next hp =>
          cases h
          have e : ({ s with inReset := false, warning := s.holdupPin } : State)
              = { s with inReset := false, warning := true } := by rw [hp]
          rw [e]; exact .startFlush hr hp
        · next hp =>
          cases h
          have e : ({ s with inReset := false, warning := s.holdupPin } : State)
              = { s with inReset := false, warning := false } := by rw [eq_false_of_ne_true hp]
          rw [e]; exact .start hr (eq_false_of_ne_true hp)
      · cases h; exact .same
    case holdupAsserted =>
      unfold execHoldupAsserted commit at h
      dsimp only at h
      split at h
      · next hr => cases h; exact .pin true hr
      · next hr =>
        cases h
        split
        · next hm => exact .effect _ (by simpa using hr) (.holdupAsserted hm)
        · next hm => exact .effect _ (by simpa using hr) (.holdupRecorded hm)
    case holdupDeasserted =>
      unfold execHoldupDeasserted commit at h
      dsimp only at h
      split at h
      · next hr => cases h; exact .pin false hr
      · next hr => cases h; exact .effect _ (by simpa using hr) .holdupDeasserted
    all_goals refine commit_after (fun u hu => ?_) h
    case sampleTick => split at hu <;> cases hu; exact .sampleTick (by assumption)
    case visit => split at hu <;> cases hu; exact .visit (by assumption)
    case sealAgeExpiry l =>
      split at hu <;> cases hu
      next hd => exact .sealAge l (by simpa [Lane.sealAgeDue] using hd)
    case resultTimeout l place =>
      split at hu <;> cases hu
      exact .timeout l _ _ _ (by assumption)
    case faultResidencyExpiry l =>
      split at hu <;> cases hu
      next hd => exact .residency l (by simpa [Lane.residencyDue] using hd)
    case writeArrival body =>
      cases hu
      split
      · exact .malformed
      · next w hw =>
        unfold offerFront
        split
        · next hl =>
          exact .frontArrival _ hl fun w' h' => by cases h'; exact (parseWrite_length hw).1
        · next hl => exact .writeFull w (Nat.le_of_not_lt hl)
    case adminArrival body =>
      cases hu
      split
      · exact .malformed
      · unfold offerFront
        split
        · next hl => exact .frontArrival _ hl fun w' h' => by cases h'
        · next hl => exact .adminFull _ (Nat.le_of_not_lt hl)
    case relocateArrival body =>
      cases hu
      split
      · exact .malformed
      · next x hx =>
        split
        · next hl => exact .relocArrival x hl (parseRelocate_count hx).1
        · next hl => exact .relocFull x (Nat.le_of_not_lt hl)
    case write =>
      split at hu
      · next w hw =>
        cases hu
        split
        · exact .writePower w hw (by assumption)
        · next hm =>
          split
          · exact .writeTag w hw (not_not.mp hm) (by assumption)
          · exact .writeInHand w hw (not_not.mp hm) (eq_false_of_ne_true (by assumption))
      · cases hu
    case writeClassification =>
      split at hu
      · next w hw =>
        dsimp only at hu
        split at hu
        · cases hu; exact .writeLate w hw (by assumption)
        · next hm =>
          split at hu
          · cases hu; exact .writeClassified w hw (not_not.mp hm) (by assumption)
          · cases hu
      · cases hu
    case relocate =>
      split at hu
      · next w hw =>
        cases hu
        split
        · exact .relocPower w hw (by assumption)
        · next hm =>
          split
          · exact .relocTag w hw (not_not.mp hm) (by assumption)
          · exact .relocInHand w hw (not_not.mp hm) (eq_false_of_ne_true (by assumption))
      · cases hu
    case relocateClassification =>
      split at hu
      · next w hw =>
        dsimp only at hu
        split at hu
        · cases hu; exact .relocLate w hw (by assumption)
        · next hm =>
          split at hu
          · cases hu; exact .relocClassified w hw (not_not.mp hm) (by assumption)
          · cases hu
      · cases hu
    case streamTableRead =>
      split at hu
      · next a s' hq =>
        obtain ⟨hi, rfl⟩ | ⟨hi, hn, rfl⟩ := streamRequest_some hq
        · repeat' split at hu
          all_goals try cases hu
          · unfold streamAccess at hu
            split at hu
            · cases hu; exact .streamReadLate a _ _ hi (by assumption)
            · simp [hi] at hu
          · exact .lateBadIndex a hi
        · repeat' split at hu
          all_goals try cases hu
          · unfold streamAccess at hu
            split at hu
            · cases hu; exact .streamRead a _ _ hn (by assumption)
            · simp only [hi, Option.isSome_none, Bool.false_eq_true, if_false] at hu
              cases hu; exact .streamWaits a hn (eq_false_of_ne_true (by assumption))
          · exact .answered a _ _ hn
      · cases hu
    case streamTableWrite =>
      split at hu
      · next a s' hq =>
        obtain ⟨hi, rfl⟩ | ⟨hi, hn, rfl⟩ := streamRequest_some hq
        · repeat' split at hu
          all_goals try cases hu
          · unfold streamAccess at hu
            split at hu
            · cases hu; exact .streamWriteLate a _ _ hi (by assumption)
            · simp [hi] at hu
          · exact .lateBadIndex a hi
        · repeat' split at hu
          all_goals try cases hu
          · unfold streamAccess at hu
            split at hu
            · cases hu; exact .streamWrite a _ _ hn (by assumption)
            · simp only [hi, Option.isSome_none, Bool.false_eq_true, if_false] at hu
              cases hu; exact .streamWaits a hn (eq_false_of_ne_true (by assumption))
          · exact .answered a _ _ hn
      · cases hu
    case groupTableRead => exact readTable_some hu
    case settingsTableRead => exact readTable_some hu
    case laneTableRead => exact readTable_some hu
    case unitTableRead => exact readTable_some hu
    case frontTagTableRead => exact readTable_some hu
    case relocTagTableRead => exact readTable_some hu
    case resetCauseTableRead => exact readTable_some hu
    case drain => exact onLaneRequest_some (fun a l ha => .drain a l ha) hu
    case stop => exact onLaneRequest_some (fun a l ha => .stop a l ha) hu
    case clear => exact onLaneRequest_some (fun a l ha => .clear a l ha) hu
    case groupTableWrite =>
      obtain ⟨a, ha, hu⟩ := onAdmin_some hu
      repeat' split at hu
      all_goals cases hu
      · exact .groupWrite a _ _ ha
      · exact .answered a _ _ ha
    case settingsTableWrite =>
      obtain ⟨a, ha, hu⟩ := onAdmin_some hu
      dsimp only at hu
      repeat' split at hu
      all_goals cases hu
      · exact .settingsWrite a _ ha
      · exact .answered a _ _ ha
    case tableWrite =>
      obtain ⟨a, ha, hu⟩ := onAdmin_some hu
      repeat' split at hu
      all_goals cases hu
      all_goals exact .answered a _ _ ha
    case conditionRead =>
      obtain ⟨a, ha, hu⟩ := onAdmin_some hu
      split at hu <;> cases hu; exact .answered a _ _ ha
    case conditionClear =>
      obtain ⟨a, ha, hu⟩ := onAdmin_some hu
      dsimp only at hu
      repeat' split at hu
      all_goals cases hu
      · exact .conditionClear a _ ha
      · exact .answered a _ _ ha
    case captureTake =>
      obtain ⟨a, ha, hu⟩ := onAdmin_some hu
      dsimp only at hu
      split at hu <;> cases hu; exact .captureTake a _ ha
    case softReset =>
      obtain ⟨a, ha, hu⟩ := onAdmin_some hu
      split at hu <;> cases hu; exact .softReset a ha
    case resultOk => cases hu; exact onResult_effect _ _ _ _ fun l v rest hs hm => .resultOk l v rest _ _ hs hm
    case resultFail => cases hu; exact onResult_effect _ _ _ _ fun l v rest hs hm => .resultFail l v rest _ _ hs hm
    case resultAborted =>
      cases hu; exact onResult_effect _ _ _ _ fun l v rest hs hm => .resultAborted l v rest _ _ hs hm
    case grant => cases hu; exact .grant _ _
    case holdOn =>
      cases hu
      repeat' split
      · exact .holdOnStopping (by assumption) (by assumption)
      · exact .holdOnHeld (by assumption) (eq_false_of_ne_true (by assumption))
      all_goals exact .holdViolated
    case holdOff =>
      cases hu
      repeat' split
      · exact .holdOffReleasing (by simp [*])
      · exact .holdOffFree (by assumption) (eq_false_of_ne_true (by assumption))
      · exact .holdOffReleasing (by simp [*])
      all_goals exact .holdViolated
    case bLinkSendEnd => split at hu <;> cases hu; exact .bSendEnd _ (by assumption)
    case fLinkSendEnd => split at hu <;> cases hu; exact .fSendEnd _ (by assumption)
    case warningTakenAfterSoftReset => split at hu <;> cases hu; exact .warningTaken (by assumption)
    case malformedRecord => split at hu <;> cases hu; exact .malformed

end Sys2Proof.Machine
end

