-- ==== Sys2Proof/Laws/Taking.lean ====
section
/-! SUPPORT. Taking a record: the arbiter's conditions in the words of the claims, and what the shared
operations over them answer. -/

namespace Sys2Proof.Laws
open Sys2Proof.Machine

/-- A warning that is not due, in the words of the claims. -/
theorem warningDue_false {s : State} (h : ¬ (s.warning = true ∧ s.mode = .run)) : s.warningDue = false := by
  simp only [State.warningDue]
  by_contra hc
  simp at hc
  exact h hc

/-- A front record that is next: what `nextFront` and `takeFront` answer. -/
theorem FrontIsNext_taken {s : State} {r : FrontRec} {rest : List FrontRec} (h : s.FrontIsNext r rest) :
    s.nextFront = some r ∧ s.takeFront = s.frontTaken rest ∧ s.inReset = false ∧ s.inHand = none := by
  obtain ⟨h1, h2, h3, h4, h5⟩ := h
  have hch : s.choice = some .front := by
    unfold State.choice
    rw [h4]
    cases hr : s.relocQueue with
    | nil => rfl
    | cons a b => rw [hr] at h5; simp at h5; simp [h5]
  refine ⟨?_, ?_, h1, h2⟩
  · simp [State.nextFront, State.classifierReady, h2, warningDue_false h3, hch, h4]
  · simp only [State.takeFront, State.frontTaken, h4, fholdAfter, List.tail_cons]
    congr 1

/-- A front record that is next leaves no relocation record to take. -/
theorem FrontIsNext_nextReloc {s : State} {r : FrontRec} {rest : List FrontRec} (h : s.FrontIsNext r rest) :
    s.nextReloc = none := by
  obtain ⟨_, _, _, h4, h5⟩ := h
  have hch : s.choice = some .front := by
    unfold State.choice
    rw [h4]
    cases hr : s.relocQueue with
    | nil => rfl
    | cons a b => rw [hr] at h5; simp at h5; simp [h5]
  simp [State.nextReloc, hch]

/-- A relocation record that is next: what `nextReloc`, `nextFront` and `takeReloc` answer. -/
theorem RelocIsNext_taken {s : State} {x : RelocateRec} {rest : List RelocateRec} (h : s.RelocIsNext x rest) :
    s.nextReloc = some x ∧ s.nextFront = none
      ∧ s.takeReloc = { s with relocQueue := rest, shareCount := 0 } ∧ s.inReset = false := by
  obtain ⟨h1, h2, h3, h4, h5⟩ := h
  have hch : s.choice = some .reloc := by
    unfold State.choice
    rw [h4]
    cases hr : s.frontQueue with
    | nil => rfl
    | cons a b => rw [hr] at h5; simp at h5; simp [Nat.not_lt.mpr h5]
  refine ⟨?_, ?_, ?_, h1⟩
  · simp [State.nextReloc, State.classifierReady, h2, warningDue_false h3, hch, h4]
  · simp [State.nextFront, hch]
  · simp [State.takeReloc, h4]

/-- An ADMIN that is next is handed to its step with the state that has taken it. -/
theorem onAdmin_next {s : State} {a : Admin} {rest : List FrontRec} (h : s.FrontIsNext (.admin a) rest)
    (f : Admin → State → Option State) : onAdmin s f = f a (s.frontTaken rest) := by
  obtain ⟨h1, h2, _⟩ := FrontIsNext_taken h
  simp [onAdmin, h1, h2]

/-- A LANE-REQUEST that is next. -/
theorem onLaneRequest_next {s : State} {id : BitVec 16} {lane : LaneField} {act : LaneAction}
    {rest : List FrontRec} (h : s.FrontIsNext (.admin ⟨id, .laneRequest lane act⟩) rest)
    (f : Admin → LaneId → State → State) :
    onLaneRequest s act f = some (match LaneField.lane lane with
      | none => (s.frontTaken rest).reply ⟨id, .laneRequest lane act⟩ .badIndex
      | some l => f ⟨id, .laneRequest lane act⟩ l (s.frontTaken rest)) := by
  rw [onLaneRequest, onAdmin_next h]
  exact if_pos rfl

/-- The table that a lane field below 48 names is that lane. -/
theorem lane_of_field {f : LaneField} {l : LaneId} (h : f.val = l.val) : LaneField.lane f = some l := by
  simp [LaneField.lane, h]

/-- A lane field of 48 to 63 names no lane. -/
theorem lane_of_bad {f : LaneField} (h : 48 ≤ f.val) : LaneField.lane f = none := by
  simp [LaneField.lane, Nat.not_lt.mpr h]

/-- A lane's own field is the one that names it. -/
theorem field_of_lane {f : LaneField} {l : LaneId} (h : f.val = l.val) : LaneId.field l = f :=
  Fin.ext h.symm

/-- A step that is taken while the part works. -/
theorem commit_some {s : State} (h : s.inReset = false) (t : State) :
    commit s (some t) = .next t.latchLevels := by simp [commit, h]

/-- A step that is not due. -/
theorem commit_none (s : State) : commit s none = .next s := by simp [commit]

/-- The port serves a classifier access, in the words of the claims. -/
theorem portServesClassifier_iff (s : State) : s.portServesClassifier = true ↔ s.PortFree := by
  simp only [State.portServesClassifier, State.visitWaits, State.PortFree]
  cases s.sweep.state <;> simp

/-- The access that is served, in the words of the claims. -/
theorem countAccess_eq (s : State) : s.countAccess = s.accessServed := by
  simp [State.countAccess, State.accessServed, State.visitWaits]

end Sys2Proof.Laws
end

