-- ==== Sys2Proof/Laws/Idle.lean ====
section
/-! SUPPORT. The step that is due on an empty queue, in the words of the claims: the row of a request, the
expiry of a lane, the taking of a record. -/

namespace Sys2Proof.Laws
open Sys2Proof.Machine

/-- The row of a request is the command that executes it. -/
theorem requestCommand_row {r : AdminReq} {c : Instr} (h : RowOf r c) : requestCommand r = c := by
  rcases h with ⟨code, i, rfl, h⟩ | ⟨code, i, f, rfl, h⟩ | ⟨code, i, h, h2, rfl⟩ | ⟨l, a, rfl, h⟩ | ⟨rfl, rfl⟩
    | ⟨x, rfl, rfl⟩ | ⟨rfl, rfl⟩ | ⟨rfl, rfl⟩
  · simp at h
    rcases h with ⟨h, rfl⟩ | ⟨h, rfl⟩ | ⟨h, rfl⟩ | ⟨h, rfl⟩ | ⟨h, rfl⟩ | ⟨h, rfl⟩ | ⟨h, rfl⟩ | ⟨h, rfl⟩ <;>
      simp [requestCommand, tableOfCode, h]
  · simp at h
    rcases h with ⟨h, rfl⟩ | ⟨h, rfl⟩ | ⟨h, rfl⟩ | ⟨h, rfl⟩ | ⟨h, rfl⟩ | ⟨h, rfl⟩ | ⟨h, rfl⟩ | ⟨h, rfl⟩ <;>
      simp [requestCommand, tableOfCode, h]
  · have : tableOfCode code = none := by
      unfold tableOfCode
      rcases h with rfl | h
      · rfl
      · split <;> first | rfl | omega
    rcases h2 with rfl | ⟨f, rfl⟩ <;> simp [requestCommand, this]
  · simp at h
    rcases h with ⟨rfl, rfl⟩ | ⟨rfl, rfl⟩ | ⟨rfl, rfl⟩ <;> rfl
  all_goals rfl

/-- No result timer has run out. -/
theorem duePlace_none {us : List Issued} (h : ∀ u ∈ us, u.timer ≠ 0) : duePlace us = none := by
  simp only [duePlace, List.find?_eq_none]
  intro p _
  cases hu : us[p.val]? with
  | none => simp
  | some u => simp [h u (List.mem_of_getElem? hu)]

/-- The first result timer that has run out. -/
theorem duePlace_some {xs ys : List Issued} {u : Issued} {p : Fin 4} (hl : xs.length = p.val)
    (h : ∀ v ∈ xs, v.timer ≠ 0) (hu : u.timer = 0) : duePlace (xs ++ u :: ys) = some p := by
  simp only [duePlace, List.find?_eq_some_iff_getElem]
  refine ⟨by simp [← hl, hu], p.val, by simp, by simp, fun j hj => ?_⟩
  have hx : j < xs.length := by omega
  simp [List.getElem?_append_left hx, List.getElem?_eq_getElem hx, h _ (List.getElem_mem hx)]

/-- A quiet lane has no expiry due. -/
theorem dueCommand_quiet {l : LaneId} {ln : Lane} (h : ln.Quiet) : ln.dueCommand l = none := by
  obtain ⟨h1, h2, h3⟩ := h
  simp [Lane.dueCommand, Lane.sealAgeDue, Lane.residencyDue, h1, h2, duePlace_none h3]

/-- The first due expiry of a lane is the one that it takes. -/
theorem dueCommand_first {l : LaneId} {ln : Lane} {c : Instr} (h : ln.FirstDue l c) :
    ln.dueCommand l = some c := by
  rcases h with ⟨h, rfl⟩ | ⟨h, p, xs, ys, u, ho, hl, hx, hu, rfl⟩ | ⟨h, h2, h3, rfl⟩
  · simp [Lane.dueCommand, Lane.sealAgeDue, h]
  · simp [Lane.dueCommand, Lane.sealAgeDue, h, ho, duePlace_some hl hx hu]
  · simp [Lane.dueCommand, Lane.sealAgeDue, h, duePlace_none h2, Lane.residencyDue, h3]

/-- An idle classifier takes a front record that is next. -/
theorem classifierCommand_front {s : State} {r : FrontRec} {rest : List FrontRec} (h : s.FrontIsNext r rest) :
    s.classifierCommand = some (match r with
      | .write _ => .write
      | .admin a => requestCommand a.req) := by
  obtain ⟨h1, _, _, h4⟩ := FrontIsNext_taken h
  cases r <;> simp [State.classifierCommand, h4, State.takeCommand, h1]

/-- An idle classifier takes a relocation record that is next. -/
theorem classifierCommand_reloc {s : State} {x : RelocateRec} {rest : List RelocateRec}
    (h : s.RelocIsNext x rest) : s.classifierCommand = some .relocate := by
  obtain ⟨h1, h2, _⟩ := RelocIsNext_taken h
  simp [State.classifierCommand, h.2.1, State.takeCommand, h1, h2]

/-- A record in hand that waits for its access leaves nothing due at once. -/
theorem classifierCommand_waits {s : State} (h : s.inHand ≠ none) (ha : s.accessWaits = true) :
    s.classifierCommand = none := by
  unfold State.classifierCommand
  cases hh : s.inHand with
  | none => exact absurd hh h
  | some x => simp [ha]

/-- What the port arbiter serves, in the words of the claims. -/
theorem portCommand_serves {s : State} {c : Instr} (h : s.PortServes c) :
    s.portCommand = some c ∧ (s.inHand ≠ none → s.accessWaits = true) := by
  rcases h with ⟨hf, h⟩ | ⟨hs, rfl, h⟩
  · have hv : ∀ b, (s.visitWaits && (!b || Config.classifierRunMax ≤ s.classifierRun)) = true → b = false := by
      intro b
      rcases hf with hf | hf <;> cases b <;> simp [State.visitWaits, hf]
    rcases h with ⟨w, h, hm, rfl⟩ | ⟨x, h, hm, rfl⟩ | ⟨a, h, hr⟩
    · have ha : s.accessWaits = true := by simp [State.accessWaits, h, hm]
      have hp : s.portServesVisit = false := by
        rw [← Bool.not_eq_true]; intro hc; exact absurd (hv _ hc) (by simp [ha])
      exact ⟨by simp [State.portCommand, hp, ha, h, InHand.command], fun _ => ha⟩
    · have ha : s.accessWaits = true := by simp [State.accessWaits, h, hm]
      have hp : s.portServesVisit = false := by
        rw [← Bool.not_eq_true]; intro hc; exact absurd (hv _ hc) (by simp [ha])
      exact ⟨by simp [State.portCommand, hp, ha, h, InHand.command], fun _ => ha⟩
    · have ha : s.accessWaits = true := by simp [State.accessWaits, h]
      have hp : s.portServesVisit = false := by
        rw [← Bool.not_eq_true]; intro hc; exact absurd (hv _ hc) (by simp [ha])
      exact ⟨by simp [State.portCommand, hp, ha, h, InHand.command, requestCommand_row hr], fun _ => ha⟩
  · rcases h with h | ⟨h8, h⟩
    · exact ⟨by simp [State.portCommand, State.portServesVisit, State.visitWaits, hs, State.accessWaits, h],
        fun hc => absurd h hc⟩
    · refine ⟨by simp [State.portCommand, State.portServesVisit, State.visitWaits, hs, h8], fun hn => ?_⟩
      rcases h with h | ⟨a, h⟩
      · unfold State.accessWaits
        cases hh : s.inHand with
        | none => exact absurd hh hn
        | some x => cases x <;> simp [h]
      · simp [State.accessWaits, h]

/-- A millisecond tick, in the words of the claims. -/
theorem msTick_ticks (s : State) : s.TicksTo (msTick s) := by
  refine ⟨s.lanes.map Lane.tick, rfl, fun l => ?_⟩
  simp only [Table.get_map, Lane.tick, Residency.tick]
  congr 1
  cases (s.lanes.get l).residency <;> rfl

/-- An idle classifier with both queues empty stays idle (R49). -/
theorem classifierCommand_idle {s : State} (h1 : s.inHand = none) (h2 : s.frontQueue = [])
    (h3 : s.relocQueue = []) : s.classifierCommand = none := by
  simp [State.classifierCommand, State.takeCommand, State.nextFront, State.nextReloc, State.choice, h1, h2, h3]

end Sys2Proof.Laws
end

