-- ==== Sys2Proof/Laws/Lanes.lean ====
section
/-! SUPPORT. What the lane operations do to the lanes and to the records still to be sent, each said once. -/

namespace Sys2Proof.Machine

variable (s : State)

/-! ## The links -/

@[simp] theorem createF_outF (r : FRecord) : (s.createF r).outF = s.outF ++ [r] := by
  simp only [State.outF, State.createF, FLink.advance]
  split
  · next h1 h2 => simp_all
  · simp

@[simp] theorem createB_outB (r : BRecord) : (s.createB r).outB = s.outB ++ [r] := by
  simp only [State.outB, State.createB, BLink.advance]
  split
  · next h1 h2 => simp_all
  · simp

@[simp] theorem createB_outF (r : BRecord) : (s.createB r).outF = s.outF := rfl
@[simp] theorem createF_outB (r : FRecord) : (s.createF r).outB = s.outB := rfl
@[simp] theorem setLane_outB (l : LaneId) (x : Lane) : (s.setLane l x).outB = s.outB := rfl
@[simp] theorem setLane_outF (l : LaneId) (x : Lane) : (s.setLane l x).outF = s.outF := rfl
@[simp] theorem giveback_outB (l : LaneField) (b : BlockAddr) (r : GivebackReason) (i : Option Nat) :
    (s.giveback l b r i).outB = s.outB ++ [.giveback l b r i] := createB_outB s _
@[simp] theorem reply_outF (a : Admin) (st : Status) (d : ReplyData) :
    (s.reply a st d).outF = s.outF ++ [.adminReply a.id st d] := createF_outF s _

@[simp] theorem createAllB_outB (rs : List BRecord) : (s.createAllB rs).outB = s.outB ++ rs := by
  induction rs generalizing s with
  | nil => simp [State.createAllB]
  | cons r rs ih =>
    have := ih (s.createB r)
    simp only [State.createAllB, List.foldl_cons] at this ⊢
    rw [this]; simp

@[simp] theorem createAllF_outF (rs : List FRecord) : (s.createAllF rs).outF = s.outF ++ rs := by
  induction rs generalizing s with
  | nil => simp [State.createAllF]
  | cons r rs ih =>
    have := ih (s.createF r)
    simp only [State.createAllF, List.foldl_cons] at this ⊢
    rw [this]; simp

theorem createAllB_append (xs ys : List BRecord) :
    s.createAllB (xs ++ ys) = (s.createAllB xs).createAllB ys := by
  simp [State.createAllB]

/-- Handbacks in order are GIVEBACKs created in order. -/
theorem givebackAll_eq (l : LaneId) (r : GivebackReason) (bs : List BlockAddr) :
    givebackAll l r bs s = s.createAllB (bs.map fun b => .giveback (LaneId.field l) b r none) := by
  induction bs generalizing s with
  | nil => rfl
  | cons b bs ih => exact ih _

/-- SOFT-RESET's handbacks are GIVEBACKs created in order, lane 0 first (R148). -/
theorem handBackAll_eq : handBackAll s = s.createAllB
    (allLanes.flatMap fun l => (s.lanes.get l).blocks.map fun b => .giveback (LaneId.field l) b .reset none) := by
  unfold handBackAll
  generalize allLanes = ls
  suffices h : ∀ t : State, ls.foldl (fun t l => givebackAll l .reset (s.lanes.get l).blocks t) t =
      t.createAllB (ls.flatMap fun l =>
        (s.lanes.get l).blocks.map fun b => .giveback (LaneId.field l) b .reset none) from h s
  induction ls with
  | nil => intro t; rfl
  | cons l ls ih =>
    intro t
    rw [List.foldl_cons, ih, List.flatMap_cons, createAllB_append, givebackAll_eq]

/-! ## Supply -/

/-- A lane once the block it needs has been sought (R111, R115). -/
def Lane.seek (mark : Nat) (ln : Lane) : Lane :=
  if ln.needsBlock then
    match ln.reserve with
    | [] => { ln with want := true }
    | b :: rest => if rest.length ≤ mark then { ln.pop b rest with want := true } else ln.pop b rest
  else ln

/-- The WANT that seeking a block creates, if it creates one (R115). -/
def Lane.seekWant (l : LaneId) (mark : Nat) (ln : Lane) : List BRecord :=
  if ln.needsBlock ∧ ln.want = false then
    match ln.reserve with
    | [] => [.want l 8]
    | _ :: rest => if rest.length ≤ mark then [.want l (8 - rest.length)] else []
  else []

theorem createWant_lanes (l : LaneId) (n : Nat) :
    (createWant l n s).lanes = s.lanes.set l { s.lanes.get l with want := true } := by
  unfold createWant; dsimp only
  split
  · next h => conv_lhs => rw [← Table.set_get_self s.lanes l]
              rw [← h]
  · rfl

theorem createWant_outB (l : LaneId) (n : Nat) :
    (createWant l n s).outB = s.outB ++ if (s.lanes.get l).want then [] else [.want l n] := by
  unfold createWant; dsimp only
  split <;> simp

theorem seekBlock_lanes (l : LaneId) :
    (seekBlock l s).lanes = s.lanes.set l ((s.lanes.get l).seek s.settings.refillMark) := by
  unfold seekBlock Lane.seek; dsimp only
  by_cases hn : (s.lanes.get l).needsBlock = true
  · simp only [hn, if_true]
    cases hr : (s.lanes.get l).reserve with
    | nil => dsimp only; rw [createWant_lanes]; simp [hr]
    | cons b rest =>
      dsimp only
      split
      · rw [createWant_lanes]; simp
      · rfl
  · simp [hn]

theorem seekBlock_outB (l : LaneId) :
    (seekBlock l s).outB = s.outB ++ (s.lanes.get l).seekWant l s.settings.refillMark := by
  unfold seekBlock Lane.seekWant; dsimp only
  by_cases hn : (s.lanes.get l).needsBlock = true
  · simp only [hn, if_true, true_and]
    cases hr : (s.lanes.get l).reserve with
    | nil =>
      simp only [createWant_outB]
      cases (s.lanes.get l).want <;> rfl
    | cons b rest =>
      dsimp only
      split
      · rw [createWant_outB]
        simp [Lane.pop, Config.reserveCap]
        cases (s.lanes.get l).want <;> simp
      · simp
  · simp [hn]

@[simp] theorem seekBlock_outF (l : LaneId) : (seekBlock l s).outF = s.outF := by
  simp only [State.outF, seekBlock_frame]

/-- A claimed lane (R41, R91). -/
theorem claimLane_lanes (g : GroupId) (l : LaneId) :
    (claimLane g s l).lanes = s.lanes.set l
      (Lane.seek s.settings.refillMark { s.lanes.get l with state := .opening, owner := some g }) := by
  unfold claimLane
  rw [seekBlock_lanes]; simp

/-! ## The ends of a lane -/

/-- A lane without its current block: no index stands, and nothing else changes (R108). -/
@[simp] theorem dropBlock_frame (ln : Lane) :
    ln.dropBlock.current = none ∧ ln.dropBlock.nextIndex = 0 ∧ ln.dropBlock.state = ln.state
      ∧ ln.dropBlock.owner = ln.owner ∧ ln.dropBlock.residency = ln.residency
      ∧ ln.dropBlock.filling = ln.filling ∧ ln.dropBlock.sealAge = ln.sealAge
      ∧ ln.dropBlock.sealPending = ln.sealPending ∧ ln.dropBlock.requeued = ln.requeued
      ∧ ln.dropBlock.fresh = ln.fresh ∧ ln.dropBlock.outstanding = ln.outstanding
      ∧ ln.dropBlock.reserve = ln.reserve ∧ ln.dropBlock.want = ln.want
      ∧ ln.dropBlock.unitsIssued = ln.unitsIssued ∧ ln.dropBlock.sectorsPadded = ln.sectorsPadded
      ∧ ln.dropBlock.blocksCompleted = ln.blocksCompleted ∧ ln.dropBlock.backoffs = ln.backoffs :=
  ⟨rfl, rfl, rfl, rfl, rfl, rfl, rfl, rfl, rfl, rfl, rfl, rfl, rfl, rfl, rfl, rfl, rfl⟩

/-- A lane once its current block has been handed back FAULTED, if its outstanding list is empty (R102). -/
def Lane.emptied (ln : Lane) : Lane :=
  if ln.outstanding = [] ∧ ln.current ≠ none then ln.dropBlock else ln

theorem faultedHandback_lanes (l : LaneId) :
    (faultedHandback l s).lanes = s.lanes.set l (s.lanes.get l).emptied := by
  unfold faultedHandback Lane.emptied; dsimp only
  split
  · next h =>
    cases hc : (s.lanes.get l).current with
    | none => simp
    | some b => simp [h]
  · next h => simp [h]

theorem faultedHandback_outB (l : LaneId) :
    (faultedHandback l s).outB = s.outB ++
      if (s.lanes.get l).outstanding = [] then
        (s.lanes.get l).current.toList.map fun b => .giveback (LaneId.field l) b .faulted none
      else [] := by
  unfold faultedHandback; dsimp only
  split
  · split
    · next h => simp [h]
    · next h => simp [h]
  · simp

/-- A lane whose drain is complete (R97 step 3). -/
def Lane.drained (ln : Lane) : Lane :=
  { ln.dropBlock with state := .closed, owner := none, want := false, reserve := [] }

/-- The GIVEBACKs of drain completion, in order (R97). -/
def Lane.drainGivebacks (l : LaneId) (ln : Lane) : List BRecord :=
  (ln.current.toList.map fun b =>
      if ln.nextIndex = 0 then .giveback (LaneId.field l) b .unused none
      else .giveback (LaneId.field l) b .partlyUsed (some ln.nextIndex))
    ++ ln.reserve.map fun b => .giveback (LaneId.field l) b .unused none

/-- Drain completion said whole: the lane drained, its GIVEBACKs created in order (R97). -/
theorem completeDrain_eq (l : LaneId) : completeDrain l s =
    (s.setLane l (s.lanes.get l).drained).createAllB ((s.lanes.get l).drainGivebacks l) := by
  unfold completeDrain Lane.drainGivebacks; dsimp only
  rw [givebackAll_eq, createAllB_append]
  congr 1
  split
  · next c h =>
    simp only [h]
    split <;> simp [State.createAllB, State.giveback, Lane.drained, *]
  · next h => simp [h, State.createAllB, Lane.drained]

theorem completeDrain_lanes (l : LaneId) :
    (completeDrain l s).lanes = s.lanes.set l (s.lanes.get l).drained := by
  rw [completeDrain_eq]; simp

/-- A lane after the check for drain completion (R97). -/
def Lane.checked (ln : Lane) : Lane :=
  if ln.state = .draining ∧ ln.holdsWork = false then ln.drained else ln

theorem checkDrain_lanes (l : LaneId) :
    (checkDrain l s).lanes = s.lanes.set l (s.lanes.get l).checked := by
  unfold checkDrain Lane.checked; dsimp only
  split
  · exact completeDrain_lanes s l
  · simp

theorem afterUnit_lanes (l : LaneId) :
    (afterUnit l s).lanes = s.lanes.set l
      (if (s.lanes.get l).state = .fault then (s.lanes.get l).emptied else (s.lanes.get l).checked) := by
  unfold afterUnit
  split
  · exact faultedHandback_lanes s l
  · exact checkDrain_lanes s l

/-- A lane that has entered FAULT (R100). -/
def Lane.faulted (residency : Nat) (ln : Lane) : Lane :=
  Lane.emptied { ln with
    state := .fault, sealAge := none, sealPending := false, requeued := [], fresh := [], filling := [],
    reserve := [], residency := .running residency }

theorem faultEntry_lanes (l : LaneId) :
    (faultEntry l s).lanes = s.lanes.set l ((s.lanes.get l).faulted s.settings.faultResidency) := by
  unfold faultEntry; dsimp only
  rw [faultedHandback_lanes]; simp [Lane.faulted]

@[simp] theorem faultEntry_groups (l : LaneId) :
    (faultEntry l s).groups = s.groups.map (Group.clearLane l) := by
  unfold faultEntry; dsimp only
  simp

/-! ## Issue -/

/-- A lane whose current block has taken one more unit: the index rises, or the block is complete and the
next is sought (R83 stage 6, R112). -/
def Lane.advanced (perBlock mark : Nat) (ln : Lane) : Lane :=
  if perBlock ≤ ln.nextIndex + 1 then
    Lane.seek mark { ln.dropBlock with blocksCompleted := ln.blocksCompleted + 1 }
  else { ln with nextIndex := ln.nextIndex + 1 }

theorem advanceBlock_lanes (l : LaneId) :
    (advanceBlock l s).lanes = s.lanes.set l
      ((s.lanes.get l).advanced s.settings.unitsPerBlock s.settings.refillMark) := by
  unfold advanceBlock Lane.advanced; dsimp only
  split
  · rw [seekBlock_lanes]; simp
  · rfl

/-- A lane that has issued a unit (R83 stages 1 to 3 and 5). -/
def Lane.sent (timeout : Nat) (u : SealedUnit) (b : BlockAddr) (again : Bool) (ln : Lane) : Lane :=
  { ln with
    outstanding := ln.outstanding ++ [⟨u.entries, b, ln.nextIndex, u.attempt, again, timeout⟩]
    unitsIssued := ln.unitsIssued + 1 }

/-- Issue leaves every other lane alone, and gives its own lane the stages of R83 in order. -/
theorem issue_lanes (l : LaneId) {u : SealedUnit} {ln : Lane} {b : BlockAddr}
    (hp : (s.lanes.get l).popReady = some (u, ln)) (hc : (s.lanes.get l).current = some b) :
    (issue l s).lanes = s.lanes.set l
      (((ln.sent s.settings.resultTimeout u b (!(s.lanes.get l).requeued.isEmpty)).advanced s.settings.unitsPerBlock
        s.settings.refillMark).sealWaiting s.settings.unitSize) := by
  unfold issue
  simp only [hp, hc]
  dsimp only [State.setLane]
  rw [advanceBlock_lanes]
  simp only [Table.get_set_self, Table.set_set]
  rfl

theorem popReady_none {ln : Lane} : ln.popReady = none ↔ ln.ready = [] := by
  unfold Lane.popReady Lane.ready
  cases hq : ln.requeued <;> cases hf : ln.fresh <;> simp

theorem popReady_some {ln ln' : Lane} {u : SealedUnit} (h : ln.popReady = some (u, ln')) :
    ln.ready = u :: ln'.ready := by
  unfold Lane.popReady Lane.ready at *
  cases hq : ln.requeued <;> cases hf : ln.fresh <;> simp_all <;> (obtain ⟨rfl, rfl⟩ := h; simp_all)

/-- The head leaves the ready queue, and nothing else of the lane changes. -/
theorem popReady_changes {ln ln' : Lane} {u : SealedUnit} (h : ln.popReady = some (u, ln')) :
    ∃ q f, ln' = { ln with requeued := q, fresh := f } := by
  unfold Lane.popReady at h
  cases hq : ln.requeued <;> cases hf : ln.fresh <;> simp_all <;> (obtain ⟨-, rfl⟩ := h; exact ⟨_, _, rfl⟩)

theorem issuable_iff {ln : Lane} : ln.issuable = true ↔ ln.Issuable := by
  have h : ln.readyCount ≠ 0 ↔ ln.ready ≠ [] := by
    rw [Lane.readyCount, Lane.ready, ← List.length_append, ne_eq, List.length_eq_zero_iff]
  simp [Lane.issuable, Lane.Issuable, ← h, Option.isSome_iff_ne_none, and_assoc]

/-- An issuable lane has a head unit and a current block to issue it into. -/
theorem issuable_pop {ln : Lane} (h : ln.Issuable) :
    ∃ u ln' c, ln.popReady = some (u, ln') ∧ ln.current = some c := by
  obtain ⟨h1, _, h3, _⟩ := h
  obtain ⟨c, hc⟩ := Option.ne_none_iff_exists'.mp h3
  cases hp : ln.popReady with
  | none => exact absurd (popReady_none.mp hp) h1
  | some p => exact ⟨p.1, p.2, c, rfl, hc⟩

/-- What the transmitter's choice can do: nothing, start the oldest control record, or one issue of an
issuable lane while idle, unheld and without control records (R86). -/
theorem transmitterChoice_cases :
    (transmitterChoice s = s ∧
      (s.bLink.sending = none → s.bLink.control = [] ∧ (s.hold = .free → s.nextLane = none)))
      ∨ (∃ r rest, s.bLink.sending = none ∧ s.bLink.control = r :: rest ∧
          transmitterChoice s = { s with bLink := { s.bLink with sending := some r, control := rest } })
      ∨ ∃ l, s.bLink.sending = none ∧ s.bLink.control = [] ∧ s.hold = .free ∧ s.nextLane = some l
          ∧ (s.lanes.get l).Issuable ∧ transmitterChoice s = issue l s := by
  unfold transmitterChoice
  cases hs : s.bLink.sending with
  | some r => exact .inl ⟨rfl, by simp⟩
  | none =>
    cases hc : s.bLink.control with
    | cons r rest => exact .inr (.inl ⟨r, rest, rfl, rfl, by simp [BLink.advance, hs, hc]⟩)
    | nil =>
      dsimp only
      by_cases hh : s.hold = .free
      · simp only [hh, if_true]
        cases hn : s.nextLane with
        | none => exact .inl ⟨rfl, by simp⟩
        | some l =>
          refine .inr (.inr ⟨l, trivial, trivial, trivial, rfl, ?_, rfl⟩)
          have := List.find?_some hn
          exact issuable_iff.mp (by simpa using this)
      · exact .inl (by simp [hh])

end Sys2Proof.Machine
end

