-- ==== Sys2Proof/Laws/Step.lean ====
section
/-! SUPPORT. The cases of one step, and what keeps a property along every step. -/

namespace Sys2Proof.Machine
open Host (Outcome)

theorem step_front (c : Instr) (rest : List Instr) (s : State) (h : s.pending = c :: rest) :
    step s = exec c { s with pending := rest } := by simp [step, h]

/-- One step: a command, on the state with the queue's rest or, on an empty queue, with its count of free
values; a millisecond tick; or nothing while held in reset. -/
theorem step_cases {s t : State} (h : step s = .next t) :
    (∃ c rest, s.pending = c :: rest ∧ After { s with pending := rest } t)
      ∨ (s.pending = [] ∧ ∃ n, After { s with draws := n } t ∨ t = msTick { s with draws := n }) := by
  unfold step at h
  split at h
  · next c rest hp =>
    obtain ⟨u, hu, ha⟩ := exec_after c { s with pending := rest }
    rw [hu] at h; cases h
    exact .inl ⟨c, rest, hp, ha⟩
  · next hp =>
    refine .inr ⟨hp, ?_⟩
    have run : ∀ c n, exec c { s with draws := n } = .next t → After { s with draws := n } t := by
      intro c n hc
      obtain ⟨u, hu, ha⟩ := exec_after c { s with draws := n }
      rw [hu] at hc; cases hc
      exact ha
    unfold idleStep at h
    split at h
    · cases h; exact ⟨s.draws, .inl .same⟩
    · split at h
      · next c _ => exact ⟨s.draws, .inl (run c _ h)⟩
      · split at h
        · next c _ =>
          simp only [portOrTick] at h
          split at h
          · exact ⟨_, .inl (run c _ h)⟩
          · cases h; exact ⟨_, .inr rfl⟩
        · cases h; exact ⟨s.draws, .inr rfl⟩

/-- A property is kept by every step when it does not read the queue of commands or the count of free values
and is kept by whatever a command leaves and by the millisecond tick. -/
theorem step_keeps {I : State → Prop} (queue : ∀ s q, I s → I { s with pending := q })
    (draw : ∀ s n, I s → I { s with draws := n })
    (after : ∀ s t, After s t → I s → I t) (tick : ∀ s, I s → I (msTick s))
    {s t : State} (hs : I s) (h : step s = .next t) : I t := by
  obtain ⟨c, rest, _, ha⟩ | ⟨_, n, ha | rfl⟩ := step_cases h
  · exact after _ _ ha (queue _ _ hs)
  · exact after _ _ ha (draw _ _ hs)
  · exact tick _ (draw _ _ hs)

/-- A property of the working part that reads neither the latches, the levels of HOLDUP_N nor the reset
line is kept by what a command leaves when the effects keep it. -/
theorem after_keeps {I : State → Prop} (latch : ∀ s, I s → I s.latchLevels)
    (held : ∀ s k n, I s → (n = 0 ∨ n = s.softResets) → I (heldState s k n))
    (input : ∀ s r w p, I s → I { s with inReset := r, warning := w, holdupPin := p })
    (flush : ∀ s, I s → I (beginFlush s)) (effect : ∀ s t, Effect s t → I s → I t)
    (s t : State) (h : After s t) (hs : I s) : I t := by
  cases h with
  | same => exact hs
  | powerOn => exact held _ _ _ hs (.inl rfl)
  | lineReset => exact held _ _ _ hs (.inr rfl)
  | start => exact latch _ (input s false false s.holdupPin hs)
  | startFlush => exact latch _ (flush _ (input s false true s.holdupPin hs))
  | pin b => exact input s s.inReset s.warning b hs
  | effect u hr hu => exact latch _ (effect _ _ hu hs)

end Sys2Proof.Machine
end

