-- ==== Sys2Proof/Laws/LaneMoves.lean ====
section
/-! SUPPORT. What an effect can do to one lane, said once: a chain of the moves below. A property of a
lane that every move keeps is kept by every command. -/

namespace Sys2Proof.Machine
open Relation

/-- One move of a lane under the settings `st`. `M` stands for the law of the lane maps (R38): what a
placement says of the lane holds where that law holds. -/
inductive LaneMove (M : Prop) (st : Settings) (ln : Lane) : Lane → Prop
  | flush : LaneMove M st ln (ln.flush st.unitSize)
  | sealAge : LaneMove M st ln (Lane.sealOrFlag st.unitSize { ln with sealAge := none })
  | issue (u : SealedUnit) (ln' : Lane) (b : BlockAddr) (hi : ln.Issuable)
      (hp : ln.popReady = some (u, ln')) (hc : ln.current = some b) :
      LaneMove M st ln (((ln'.sent st.resultTimeout u b (!ln.requeued.isEmpty)).advanced st.unitsPerBlock
        st.refillMark).sealWaiting st.unitSize)
  | timeout (n : Nat) (u : Issued) (rest : List Issued) (h : takeDue n ln.outstanding = some (u, rest)) :
      LaneMove M st ln
        (if ln.state = .opened ∨ ln.state = .draining then
          Lane.faulted st.faultResidency { ln with outstanding := rest }
        else if ln.state = .fault then Lane.emptied { ln with outstanding := rest }
        else { ln with outstanding := rest })
  | residency (h : ln.residency = .running 0) : LaneMove M st ln { ln with residency := .elapsed }
  | place (age : Nat) (xs : List Sector) (hx : xs.length ≤ ln.room st.unitSize)
      (hm : M → (ln.state = .opening ∨ ln.state = .opened) ∧ ∀ x ∈ xs, ln.owner = some x.group) :
      LaneMove M st ln (ln.appendAll st.unitSize age xs)
  | backoff : LaneMove M st ln { ln with backoffs := min (ln.backoffs + 1) Config.backoffsMax }
  | claim (g : GroupId) (h : ln.state = .closed) :
      LaneMove M st ln (Lane.seek st.refillMark { ln with state := .opening, owner := some g })
  | drain (h : ln.state = .opening ∨ ln.state = .opened) :
      LaneMove M st ln (Lane.checked
        { Lane.sealOrFlag st.unitSize { ln with state := .draining } with sealAge := none })
  | stop (h : ln.state = .opening ∨ ln.state = .opened ∨ ln.state = .draining) :
      LaneMove M st ln (ln.faulted st.faultResidency)
  | clear (h : ln.state = .fault) (ho : ln.outstanding = []) (hr : ln.residency = .elapsed) :
      LaneMove M st ln ln.cleared
  | settled (b : BlockAddr) (i : Nat) (u : Issued) (rest : List Issued)
      (hs : ln.state ≠ .closed ∧ ln.state ≠ .opening) (h : takeMatch b i ln.outstanding = some (u, rest)) :
      LaneMove M st ln (if ln.state = .fault then Lane.emptied { ln with outstanding := rest }
        else Lane.checked { ln with outstanding := rest })
  | thirdFailure (b : BlockAddr) (i : Nat) (u : Issued) (rest : List Issued)
      (hs : ln.state = .opened ∨ ln.state = .draining) (h : takeMatch b i ln.outstanding = some (u, rest)) :
      LaneMove M st ln (Lane.faulted st.faultResidency { ln with outstanding := rest })
  | requeue (b : BlockAddr) (i : Nat) (u : Issued) (rest : List Issued) (n : Nat)
      (hs : ln.state = .opened ∨ ln.state = .draining) (h : takeMatch b i ln.outstanding = some (u, rest))
      (hn : n = u.attempt ∨ (n = u.attempt + 1 ∧ u.attempt < 3)) :
      LaneMove M st ln (Lane.requeue { ln with outstanding := rest } u n)
  | abandon (b : BlockAddr) (i : Nat) (u : Issued) (rest : List Issued)
      (hs : ln.state = .opened ∨ ln.state = .draining) (h : takeMatch b i ln.outstanding = some (u, rest))
      (hn : u.attempt < 3) (hb : ln.current = some u.block) :
      LaneMove M st ln
        (Lane.requeue (Lane.seek st.refillMark (Lane.dropBlock { ln with outstanding := rest })) u (u.attempt + 1))
  | grant (b : BlockAddr) (h : ln.refusesGrant = false) (hl : ln.reserve.length < 8) :
      LaneMove M st ln (Lane.seek st.refillMark { ln with reserve := b :: ln.reserve, want := false })
  | reset : LaneMove M st ln Lane.reset

/-- A chain of moves. -/
abbrev LaneMoves (M : Prop) (st : Settings) : Lane → Lane → Prop := ReflTransGen (LaneMove M st)

variable {M : Prop} {s t : State}

/-- One lane is replaced by what a chain of moves makes of it; the others stay. -/
theorem moves_set {ln : Lane} {l : LaneId} (h : LaneMoves M s.settings (s.lanes.get l) ln) (m : LaneId) :
    LaneMoves M s.settings (s.lanes.get m) ((s.lanes.set l ln).get m) := by
  rw [Table.get_set]
  split
  · next e => rw [e]; exact h
  · exact .refl

theorem moves_choice (m : LaneId) :
    LaneMoves M s.settings (s.lanes.get m) ((transmitterChoice s).lanes.get m) := by
  obtain ⟨h, _⟩ | ⟨r, rest, _, _, h⟩ | ⟨l, _, _, _, _, hi, h⟩ := transmitterChoice_cases s
  · rw [h]
  · rw [h]
  · obtain ⟨u, ln', c, hp, hc⟩ := issuable_pop hi
    rw [h, issue_lanes s l hp hc]
    exact moves_set (.single (.issue u ln' c hi hp hc)) m

/-- An effect followed by the transmitter's choice. -/
theorem moves_then_choice (hst : t.settings = s.settings)
    (h : ∀ m, LaneMoves M s.settings (s.lanes.get m) (t.lanes.get m)) (m : LaneId) :
    LaneMoves M s.settings (s.lanes.get m) ((transmitterChoice t).lanes.get m) :=
  (h m).trans (hst ▸ moves_choice m)

theorem moves_flush (m : LaneId) :
    LaneMoves M s.settings (s.lanes.get m) ((beginFlush s).lanes.get m) := by
  unfold beginFlush; dsimp only
  refine moves_then_choice (by simp) (fun m => ?_) m
  simpa using ReflTransGen.single (LaneMove.flush (M := M))

theorem moves_claims (g : GroupId) : ∀ (ls : List LaneId) (s : State), ls.Nodup →
    (∀ l ∈ ls, (s.lanes.get l).state = .closed) → ∀ m,
    LaneMoves M s.settings (s.lanes.get m) ((ls.foldl (claimLane g) s).lanes.get m) := by
  intro ls
  induction ls with
  | nil => intro s _ _ m; exact .refl
  | cons l ls ih =>
    intro s hn hc m
    rw [List.nodup_cons] at hn
    have h1 : ∀ m, LaneMoves M s.settings (s.lanes.get m) ((claimLane g s l).lanes.get m) := fun m => by
      rw [claimLane_lanes]
      exact moves_set (.single (.claim g (hc l (by simp)))) m
    have h2 := ih (claimLane g s l) hn.2 (fun k hk => by
      have hne : k ≠ l := fun e => hn.1 (e ▸ hk)
      rw [claimLane_lanes, Table.get_set_ne _ _ hne]
      exact hc k (by simp [hk])) m
    rw [show (claimLane g s l).settings = s.settings by simp] at h2
    exact (h1 m).trans h2

theorem search_some {g : Group} {c : HeatClass} {l : LaneId} (h : g.search c = some l) :
    ∃ k, g.laneMap.get k = some l := by
  unfold Group.search at h
  obtain ⟨k, _, hk⟩ := List.exists_of_findSome?_eq_some h
  exact ⟨k, hk⟩

theorem drainLane_lanes (l : LaneId) :
    (drainLane l s).lanes = s.lanes.set l (Lane.checked
      { Lane.sealOrFlag s.settings.unitSize { s.lanes.get l with state := .draining } with sealAge := none }) := by
  unfold drainLane; dsimp only
  rw [checkDrain_lanes]; simp

theorem settleUnit_lanes (p : Bool) (l : LaneId) (u : Issued) :
    (settleUnit p l u s).lanes = s.lanes.set l
      (if (s.lanes.get l).state = .fault then (s.lanes.get l).emptied else (s.lanes.get l).checked) := by
  unfold settleUnit
  rw [show ∀ x, (flushCheck x).lanes = x.lanes from fun x => by simp, afterUnit_lanes]; simp

theorem failLane_lanes (l : LaneId) (u : Issued) :
    (failLane l u s).lanes = s.lanes.set l ((s.lanes.get l).faulted s.settings.faultResidency) := by
  unfold failLane
  rw [show ∀ x, (flushCheck x).lanes = x.lanes from fun x => by simp, faultEntry_lanes]; simp

theorem abandonBlock_lanes (l : LaneId) (u : Issued) :
    (abandonBlock l u s).lanes = s.lanes.set l
      (Lane.seek s.settings.refillMark (s.lanes.get l).dropBlock) := by
  unfold abandonBlock
  rw [seekBlock_lanes]; simp

theorem timeoutUnit_lanes (l : LaneId) (u : Issued) :
    (timeoutUnit l u s).lanes = s.lanes.set l
      (if (s.lanes.get l).state = .opened ∨ (s.lanes.get l).state = .draining then
        (s.lanes.get l).faulted s.settings.faultResidency
      else if (s.lanes.get l).state = .fault then (s.lanes.get l).emptied else s.lanes.get l) := by
  unfold timeoutUnit
  rw [show ∀ x, (flushCheck x).lanes = x.lanes from fun x => by simp]
  have h : (takeCapture .resultTimeout l u ((settleEntries false u.entries s).raise .resultTimeout)).lanes
      = s.lanes := by simp
  have h' : (takeCapture .resultTimeout l u
      ((settleEntries false u.entries s).raise .resultTimeout)).settings = s.settings := by simp
  rw [h]
  split
  · rw [faultEntry_lanes, h, h']
  · split
    · rw [faultedHandback_lanes, h]
    · rw [h, Table.set_get_self]

/-- What a matched FAIL or ABORTED leaves of each lane. -/
theorem moves_failed {b : BlockAddr} {i : Nat} {l : LaneId} {u : Issued} {rest : List Issued}
    (hs : (s.lanes.get l).state ≠ .closed ∧ (s.lanes.get l).state ≠ .opening)
    (h : takeMatch b i (s.lanes.get l).outstanding = some (u, rest)) {t' : State}
    (hl : t'.lanes = s.lanes.set l { s.lanes.get l with outstanding := rest })
    (hst : t'.settings = s.settings) (m : LaneId) :
    LaneMoves M s.settings (s.lanes.get m) ((failUnit l u t').lanes.get m)
      ∧ LaneMoves M s.settings (s.lanes.get m) ((abortUnit l u t').lanes.get m) := by
  have hw : t'.lanes.get l = { s.lanes.get l with outstanding := rest } := by rw [hl]; simp
  have hopen : (s.lanes.get l).state ≠ .fault →
      (s.lanes.get l).state = .opened ∨ (s.lanes.get l).state = .draining := by
    intro hf; cases hx : (s.lanes.get l).state <;> simp_all
  have hsettle : (s.lanes.get l).state = .fault →
      LaneMoves M s.settings (s.lanes.get m) ((settleUnit false l u t').lanes.get m) := by
    intro hf
    rw [settleUnit_lanes, hw, hl, Table.set_set]
    have := LaneMove.settled (M := M) (st := s.settings) b i u rest hs h
    exact moves_set (.single this) m
  have hfail : (s.lanes.get l).state ≠ .fault →
      LaneMoves M s.settings (s.lanes.get m) ((failLane l u t').lanes.get m) := by
    intro hf
    rw [failLane_lanes, hw, hl, Table.set_set, hst]
    exact moves_set (.single (.thirdFailure b i u rest (hopen hf) h)) m
  have habandon : (s.lanes.get l).state ≠ .fault → u.attempt < 3 →
      (s.lanes.get l).current = some u.block →
      LaneMoves M s.settings (s.lanes.get m)
        ((requeueUnit l u (u.attempt + 1) (abandonBlock l u t')).lanes.get m) := by
    intro hf hn hb
    unfold requeueUnit
    simp only [State.setLane_lanes, abandonBlock_lanes, hl, Table.set_set, Table.get_set_self, hst]
    exact moves_set (.single (.abandon b i u rest (hopen hf) h hn hb)) m
  have hrequeue : ∀ n, (s.lanes.get l).state ≠ .fault → (n = u.attempt ∨ (n = u.attempt + 1 ∧ u.attempt < 3)) →
      LaneMoves M s.settings (s.lanes.get m) ((requeueUnit l u n t').lanes.get m) := by
    intro n hf hn
    unfold requeueUnit
    simp only [State.setLane_lanes, hl, Table.set_set, Table.get_set_self]
    exact moves_set (.single (.requeue b i u rest n (hopen hf) h hn)) m
  have hcur : ∀ (ln : Lane), ln.current = (s.lanes.get l).current → ln.blockCurrent u = true →
      (s.lanes.get l).current = some u.block := by
    intro ln e hb
    rw [← e]
    exact beq_iff_eq.mp hb
  constructor
  · unfold failUnit
    rw [hw]; dsimp only
    split
    · exact hsettle (by assumption)
    · next hf =>
      split
      · exact hfail hf
      · next hn =>
        split
        · next hb => exact habandon hf (Nat.lt_of_not_le hn) (hcur _ rfl hb)
        · exact hrequeue _ hf (.inr ⟨rfl, Nat.lt_of_not_le hn⟩)
  · unfold abortUnit
    rw [hw]; dsimp only
    split
    · exact hsettle (by assumption)
    · next hf =>
      split
      · next hb =>
        split
        · exact hfail hf
        · next hn => exact habandon hf (Nat.lt_of_not_le hn) (hcur _ rfl hb)
      · exact hrequeue _ hf (.inl rfl)

theorem moves_place {l : LaneId} {g : GroupId} {c : HeatClass} {xs : List Sector} {t' : State}
    (hl : t'.lanes = s.lanes) (hst : t'.settings = s.settings)
    (hg : (s.groups.get g).search c = some l) (hx : ∀ x ∈ xs, x.group = g)
    (hn : xs.length ≤ (s.lanes.get l).room s.settings.unitSize) (m : LaneId) :
    LaneMoves s.LaneMapLaw s.settings (s.lanes.get m) ((placeSectors l xs t').lanes.get m) := by
  unfold placeSectors
  simp only [State.setLane_lanes, hl, hst]
  refine moves_set (.single (.place _ xs hn fun hm => ?_)) m
  obtain ⟨k, hk⟩ := search_some hg
  obtain ⟨h1, h2, _⟩ := hm g k l hk
  exact ⟨h2, fun x hxs => by rw [hx x hxs]; exact h1⟩

theorem moves_backoff {l : LaneId} {t' : State} (hl : t'.lanes = s.lanes) (m : LaneId) :
    LaneMoves M s.settings (s.lanes.get m) ((countBackoff l t').lanes.get m) := by
  unfold countBackoff
  simp only [State.setLane_lanes, hl]
  exact moves_set (.single .backoff) m

theorem claimed_nodup (s : State) (named : List LaneId) : (s.claimed named).Nodup :=
  (List.nodup_finRange 48).filter _

theorem claimed_closed {s : State} {named : List LaneId} {l : LaneId} (h : l ∈ s.claimed named) :
    (s.lanes.get l).state = .closed := by
  simp only [State.claimed, List.mem_filter, Bool.and_eq_true, beq_iff_eq] at h
  exact h.2.2

theorem moves_storeGroup (a : Admin) (g : GroupId) (l : List (Byte × BitVec 64)) (m : LaneId) :
    LaneMoves M s.settings (s.lanes.get m) ((storeGroup a g l s).lanes.get m) := by
  unfold storeGroup
  split
  · exact .refl
  · split
    · exact .refl
    · dsimp only
      split
      · exact .refl
      · simp only [State.reply_lanes]
        exact moves_claims (s := { s with groups := s.groups.set g _ }) g _ (claimed_nodup s _)
          (fun l hl => claimed_closed hl) m

theorem moves_takeGrant (x : LaneField) (b : BlockAddr) (m : LaneId) :
    LaneMoves M s.settings (s.lanes.get m) ((takeGrant x b s).lanes.get m) := by
  unfold takeGrant
  split
  · simpa using .refl
  · split
    · simpa using .refl
    · split
      · simpa using .refl
      · split
        · simpa using .refl
        · next hr _ hl =>
          unfold acceptGrant
          rw [seekBlock_lanes]
          simp only [State.setLane_lanes, Table.set_set, Table.get_set_self, State.setLane_settings]
          exact moves_set (.single (.grant b (eq_false_of_ne_true hr) (Nat.lt_of_not_le hl))) m

theorem moves_requests (a : Admin) (l m : LaneId) :
    LaneMoves M s.settings (s.lanes.get m) ((requestDrain a l s).lanes.get m)
      ∧ LaneMoves M s.settings (s.lanes.get m) ((requestStop a l s).lanes.get m)
      ∧ LaneMoves M s.settings (s.lanes.get m) ((requestClear a l s).lanes.get m) := by
  have hd : ((s.lanes.get l).state = .opening ∨ (s.lanes.get l).state = .opened) →
      LaneMoves M s.settings (s.lanes.get m)
        ((transmitterChoice ((flushCheck (drainLane l s)).reply a .ok)).lanes.get m) := fun h => by
    refine moves_then_choice (by simp) (fun m => ?_) m
    rw [show ((flushCheck (drainLane l s)).reply a .ok).lanes = (drainLane l s).lanes by simp, drainLane_lanes]
    exact moves_set (.single (.drain h)) m
  have hs : ((s.lanes.get l).state = .opening ∨ (s.lanes.get l).state = .opened
      ∨ (s.lanes.get l).state = .draining) →
      LaneMoves M s.settings (s.lanes.get m) (((flushCheck (faultEntry l s)).reply a .ok).lanes.get m) := fun h => by
    rw [show ((flushCheck (faultEntry l s)).reply a .ok).lanes = (faultEntry l s).lanes by simp, faultEntry_lanes]
    exact moves_set (.single (.stop h)) m
  refine ⟨?_, ?_, ?_⟩
  · unfold requestDrain
    split
    · exact hd (.inl (by assumption))
    · exact hd (.inr (by assumption))
    all_goals exact .refl
  · unfold requestStop
    split
    · exact hs (.inl (by assumption))
    · exact hs (.inr (.inl (by assumption)))
    · exact hs (.inr (.inr (by assumption)))
    all_goals exact .refl
  · unfold requestClear
    dsimp only
    split
    · split
      · exact .refl
      · split
        · exact .refl
        · next h1 h2 h3 =>
          simp only [State.reply_lanes, State.setLane_lanes]
          exact moves_set (.single (.clear h1 (not_not.mp h2) (not_not.mp h3))) m
    · exact .refl

/-- What an effect leaves of each lane. -/
theorem effect_moves (h : Effect s t) (m : LaneId) :
    LaneMoves s.LaneMapLaw s.settings (s.lanes.get m) (t.lanes.get m) := by
  cases h
  case holdupAsserted => exact moves_flush (s := { s with holdupPin := true }) m
  case warningTaken => exact moves_flush m
  case sealAge l h => exact moves_then_choice (by simp) (moves_set (.single .sealAge)) m
  case timeout l n u rest h =>
    rw [timeoutUnit_lanes]
    simp only [State.setLane_lanes, Table.get_set_self, Table.set_set, State.setLane_settings]
    exact moves_set (.single (.timeout n u rest h)) m
  case residency l h => exact moves_set (.single (.residency h)) m
  case writeClassified w h hm hp =>
    refine moves_then_choice (by simp) (fun m => ?_) m
    unfold classifyWrite
    dsimp only
    split
    · split
      · simpa using .refl
      · next l hl =>
        split
        · next hr =>
          simp only [State.setStream_lanes]
          refine moves_place (by simp) (by simp) hl (fun x hx => ?_) ?_ m
          · simp only [writeSectors, List.mem_map] at hx
            obtain ⟨_, _, rfl⟩ := hx; rfl
          · simpa [writeSectors] using hr
        · simp only [refuseWrite_frame]; exact moves_backoff rfl m
    · simpa using .refl
  case relocClassified x h hm hp =>
    refine moves_then_choice (by simp) (fun m => ?_) m
    unfold classifyRelocate
    dsimp only
    split
    · simpa using .refl
    · next l hl =>
      split
      · next hr =>
        refine moves_place (by simp) (by simp) hl (fun y hy => ?_) ?_ m
        · simp only [relocateSectors, List.mem_map] at hy
          obtain ⟨_, _, rfl⟩ := hy; rfl
        · simpa [relocateSectors] using hr
      · simp only [refuseRelocate_frame]; exact moves_backoff rfl m
  case groupWrite a g l h => exact moves_then_choice (by simp) (moves_storeGroup (s := s.takeFront) a g l) m
  case drain a l h => exact (moves_requests (s := s.takeFront) a l m).1
  case stop a l h => exact (moves_requests (s := s.takeFront) a l m).2.1
  case clear a l h => exact (moves_requests (s := s.takeFront) a l m).2.2
  case softReset a h => simpa using .single .reset
  case resultOk l u rest b i hs h =>
    refine moves_then_choice (by simp) (fun m => ?_) m
    rw [settleUnit_lanes]
    simp only [State.setLane_lanes, Table.get_set_self, Table.set_set]
    exact moves_set (.single (.settled b i u rest hs h)) m
  case resultFail l u rest b i hs h =>
    exact moves_then_choice (by simp) (fun m => (moves_failed hs h (by simp) (by simp) m).1) m
  case resultAborted l u rest b i hs h =>
    exact moves_then_choice (by simp) (fun m => (moves_failed hs h (by simp) (by simp) m).2) m
  case grant x b => exact moves_then_choice (by simp) (moves_takeGrant x b) m
  case holdOffFree h hp => exact moves_then_choice (by simp) (fun m => by simpa using .refl) m
  case bSendEnd r h => exact moves_then_choice (by simp) (fun m => by simpa using .refl) m
  all_goals simpa using .refl

/-- A property of a lane under the settings, kept by every move, holds after an effect of every lane for
which it held before. -/
theorem effect_lane_keeps {P : Lane → Prop} (h : Effect s t)
    (keep : ∀ a b, LaneMove s.LaneMapLaw s.settings a b → P a → P b) (hs : ∀ l, P (s.lanes.get l)) (l : LaneId) :
    P (t.lanes.get l) := by
  have hm := effect_moves h l
  generalize t.lanes.get l = x at hm ⊢
  induction hm with
  | refl => exact hs l
  | tail _ h1 ih => exact keep _ _ h1 ih

end Sys2Proof.Machine
end

