-- ==== Sys2Proof/Laws/LaneOps.lean ====
section
/-! SUPPORT. The operations on one lane context: what each leaves alone, and the few forms its result can
have. -/

namespace Sys2Proof.Machine

variable (ln : Lane)

theorem readyCount_eq : ln.readyCount = ln.ready.length := by simp [Lane.readyCount, Lane.ready]

/-- Seeking a block touches the state, the current block, the reserve stack and the want flag alone. -/
@[simp] theorem seek_frame (mark : Nat) :
    (ln.seek mark).owner = ln.owner ∧ (ln.seek mark).residency = ln.residency
      ∧ (ln.seek mark).filling = ln.filling ∧ (ln.seek mark).sealAge = ln.sealAge
      ∧ (ln.seek mark).sealPending = ln.sealPending ∧ (ln.seek mark).requeued = ln.requeued
      ∧ (ln.seek mark).fresh = ln.fresh ∧ (ln.seek mark).outstanding = ln.outstanding
      ∧ (ln.seek mark).unitsIssued = ln.unitsIssued ∧ (ln.seek mark).sectorsPadded = ln.sectorsPadded
      ∧ (ln.seek mark).blocksCompleted = ln.blocksCompleted ∧ (ln.seek mark).backoffs = ln.backoffs := by
  unfold Lane.seek Lane.pop
  split
  · split
    · simp
    · split <;> simp
  · simp

/-- Seeking a block: nothing is needed; the stack is empty; or its top becomes the current block at
index 0 and an OPENING lane becomes OPEN (R111). -/
theorem seek_cases (mark : Nat) :
    (ln.needsBlock = false ∧ ln.seek mark = ln)
      ∨ (ln.needsBlock = true ∧ ln.reserve = [] ∧ ln.seek mark = { ln with want := true })
      ∨ ∃ b rest, ln.needsBlock = true ∧ ln.reserve = b :: rest ∧ (ln.seek mark).current = some b
          ∧ (ln.seek mark).nextIndex = 0
          ∧ (ln.seek mark).reserve = rest
          ∧ (ln.seek mark).state = (if ln.state = .opening then .opened else ln.state) := by
  unfold Lane.seek
  by_cases hn : ln.needsBlock = true
  · simp only [hn, if_true]
    cases hr : ln.reserve with
    | nil => exact .inr (.inl ⟨trivial, rfl, by simp⟩)
    | cons b rest =>
      refine .inr (.inr ⟨b, rest, trivial, rfl, ?_⟩)
      dsimp only
      split <;> simp [Lane.pop]
  · exact .inl ⟨by simpa using hn, by simp [hn]⟩

/-- Advancing the block touches besides those the count of completed blocks. -/
@[simp] theorem advanced_frame (per mark : Nat) :
    (ln.advanced per mark).owner = ln.owner ∧ (ln.advanced per mark).residency = ln.residency
      ∧ (ln.advanced per mark).filling = ln.filling ∧ (ln.advanced per mark).sealAge = ln.sealAge
      ∧ (ln.advanced per mark).sealPending = ln.sealPending ∧ (ln.advanced per mark).requeued = ln.requeued
      ∧ (ln.advanced per mark).fresh = ln.fresh ∧ (ln.advanced per mark).outstanding = ln.outstanding
      ∧ (ln.advanced per mark).unitsIssued = ln.unitsIssued
      ∧ (ln.advanced per mark).sectorsPadded = ln.sectorsPadded
      ∧ (ln.advanced per mark).backoffs = ln.backoffs := by
  unfold Lane.advanced
  split <;> simp

@[simp] theorem sealFilling_ready (U : Nat) : (ln.sealFilling U).ready = ln.ready ++
    [⟨ln.filling.map .sector ++ List.replicate (U - ln.filling.length) .pad, 1⟩] := by
  simp [Lane.sealFilling, Lane.ready]

@[simp] theorem sealFilling_frame (U : Nat) :
    (ln.sealFilling U).state = ln.state ∧ (ln.sealFilling U).owner = ln.owner
      ∧ (ln.sealFilling U).residency = ln.residency ∧ (ln.sealFilling U).filling = []
      ∧ (ln.sealFilling U).sealAge = none ∧ (ln.sealFilling U).sealPending = false
      ∧ (ln.sealFilling U).requeued = ln.requeued ∧ (ln.sealFilling U).outstanding = ln.outstanding
      ∧ (ln.sealFilling U).current = ln.current
      ∧ (ln.sealFilling U).nextIndex = ln.nextIndex ∧ (ln.sealFilling U).reserve = ln.reserve
      ∧ (ln.sealFilling U).want = ln.want ∧ (ln.sealFilling U).unitsIssued = ln.unitsIssued
      ∧ (ln.sealFilling U).blocksCompleted = ln.blocksCompleted ∧ (ln.sealFilling U).backoffs = ln.backoffs := by
  simp [Lane.sealFilling]

/-- An expiry, a drain or a flush leaves the filling unit, seals it, or flags it. -/
theorem sealOrFlag_cases (U : Nat) :
    (ln.sealOrFlag U = ln ∧ (ln.filling = [] ∨ (4 ≤ ln.ready.length ∧ U ≤ ln.filling.length)))
      ∨ (ln.filling ≠ [] ∧ ln.ready.length < 4 ∧ ln.sealOrFlag U = ln.sealFilling U)
      ∨ (ln.filling ≠ [] ∧ 4 ≤ ln.ready.length ∧ ln.filling.length < U
          ∧ ln.sealOrFlag U = { ln with sealPending := true, sealAge := none }) := by
  unfold Lane.sealOrFlag
  rw [readyCount_eq]
  by_cases h1 : ln.filling = []
  · exact .inl (by simp [h1])
  · by_cases h2 : ln.ready.length < 4
    · exact .inr (.inl ⟨h1, h2, by simp [h1, h2]⟩)
    · by_cases h3 : ln.filling.length < U
      · exact .inr (.inr ⟨h1, by omega, h3, by simp [h1, h2, h3]⟩)
      · exact .inl ⟨by simp [h1, h2, h3], .inr ⟨by omega, by omega⟩⟩

/-- An issue seals a full or flagged filling unit once fewer than 4 units are ready. -/
theorem sealWaiting_cases (U : Nat) :
    (ln.filling ≠ [] ∧ ln.ready.length < 4 ∧ (U ≤ ln.filling.length ∨ ln.sealPending = true)
        ∧ ln.sealWaiting U = ln.sealFilling U)
      ∨ (¬ (ln.filling ≠ [] ∧ ln.ready.length < 4 ∧ (U ≤ ln.filling.length ∨ ln.sealPending = true))
        ∧ ln.sealWaiting U = ln) := by
  unfold Lane.sealWaiting
  rw [readyCount_eq]
  by_cases h : ln.filling ≠ [] ∧ ln.ready.length < 4 ∧ (U ≤ ln.filling.length ∨ ln.sealPending = true)
  · exact .inl ⟨h.1, h.2.1, h.2.2, if_pos h⟩
  · exact .inr ⟨h, if_neg h⟩

/-- The seal-age timer once an entry has joined (R75). -/
def Lane.timerAfter (age : Nat) (ln : Lane) : Option Nat :=
  if ln.filling = [] then (if age = 0 then none else some age) else ln.sealAge

/-- One entry joins: the unit does not fill, fills and is sealed, or fills and waits. -/
theorem append_cases (U age : Nat) (x : Sector) :
    (ln.filling.length + 1 < U ∧ ln.append U age x
        = { ln with filling := ln.filling ++ [x], sealAge := ln.timerAfter age })
      ∨ (U ≤ ln.filling.length + 1 ∧ ln.ready.length < 4 ∧ ln.append U age x
        = Lane.sealFilling U { ln with filling := ln.filling ++ [x], sealAge := ln.timerAfter age })
      ∨ (U ≤ ln.filling.length + 1 ∧ 4 ≤ ln.ready.length ∧ ln.append U age x
        = { ln with filling := ln.filling ++ [x], sealAge := none }) := by
  unfold Lane.append Lane.timerAfter
  rw [readyCount_eq]
  dsimp only
  simp only [List.length_append, List.length_singleton]
  by_cases h1 : U ≤ ln.filling.length + 1
  · by_cases h2 : ln.ready.length < 4
    · exact .inr (.inl ⟨h1, h2, by simp [h1, h2]⟩)
    · exact .inr (.inr ⟨h1, by omega, by simp [h1, h2]⟩)
  · exact .inl ⟨by omega, by simp [h1]⟩

@[simp] theorem append_frame (U age : Nat) (x : Sector) :
    (ln.append U age x).state = ln.state ∧ (ln.append U age x).owner = ln.owner
      ∧ (ln.append U age x).residency = ln.residency ∧ (ln.append U age x).requeued = ln.requeued
      ∧ (ln.append U age x).outstanding = ln.outstanding ∧ (ln.append U age x).current = ln.current
      ∧ (ln.append U age x).nextIndex = ln.nextIndex
      ∧ (ln.append U age x).reserve = ln.reserve ∧ (ln.append U age x).want = ln.want
      ∧ (ln.append U age x).unitsIssued = ln.unitsIssued
      ∧ (ln.append U age x).blocksCompleted = ln.blocksCompleted
      ∧ (ln.append U age x).backoffs = ln.backoffs := by
  obtain ⟨_, h⟩ | ⟨_, _, h⟩ | ⟨_, _, h⟩ := append_cases ln U age x <;> rw [h] <;> simp

@[simp] theorem appendAll_frame (U age : Nat) (xs : List Sector) :
    (ln.appendAll U age xs).state = ln.state ∧ (ln.appendAll U age xs).owner = ln.owner
      ∧ (ln.appendAll U age xs).residency = ln.residency ∧ (ln.appendAll U age xs).requeued = ln.requeued
      ∧ (ln.appendAll U age xs).outstanding = ln.outstanding ∧ (ln.appendAll U age xs).current = ln.current
      ∧ (ln.appendAll U age xs).nextIndex = ln.nextIndex
      ∧ (ln.appendAll U age xs).reserve = ln.reserve ∧ (ln.appendAll U age xs).want = ln.want
      ∧ (ln.appendAll U age xs).unitsIssued = ln.unitsIssued
      ∧ (ln.appendAll U age xs).blocksCompleted = ln.blocksCompleted
      ∧ (ln.appendAll U age xs).backoffs = ln.backoffs := by
  induction xs generalizing ln with
  | nil => simp [Lane.appendAll]
  | cons x xs ih =>
    have := ih (ln.append U age x)
    simp only [Lane.appendAll, List.foldl_cons] at this ⊢
    simpa using this

/-- A unit that is matched leaves the list from its place; the others keep their order (R121, R122). -/
theorem takeMatch_some {b : BlockAddr} {i : Nat} {us rest : List Issued} {u : Issued}
    (h : takeMatch b i us = some (u, rest)) :
    ∃ xs ys, us = xs ++ u :: ys ∧ rest = xs ++ ys ∧ u.block = b ∧ u.index = i
      ∧ ∀ v ∈ xs, ¬ (v.block = b ∧ v.index = i) := by
  induction us generalizing u rest with
  | nil => simp [takeMatch] at h
  | cons v us ih =>
    unfold takeMatch at h
    split at h
    · next hv => cases h; exact ⟨[], us, rfl, rfl, hv.1, hv.2, by simp⟩
    · next hv =>
      obtain ⟨⟨w, r⟩, hw, he⟩ := Option.map_eq_some_iff.mp h
      cases he
      obtain ⟨xs, ys, rfl, rfl, h1, h2, h3⟩ := ih hw
      exact ⟨v :: xs, ys, rfl, rfl, h1, h2, by simpa using ⟨by simpa using hv, by simpa using h3⟩⟩

/-- No unit is matched exactly when none has the block and the index. -/
theorem takeMatch_none {b : BlockAddr} {i : Nat} {us : List Issued} :
    takeMatch b i us = none ↔ ∀ v ∈ us, ¬ (v.block = b ∧ v.index = i) := by
  induction us with
  | nil => simp [takeMatch]
  | cons v us ih =>
    unfold takeMatch
    split
    · next hv => simp [hv]
    · next hv => simp only [Option.map_eq_none_iff, ih, List.forall_mem_cons]; exact ⟨fun h => ⟨hv, h⟩, And.right⟩

/-- A unit whose timer is due leaves the list from its place. -/
theorem takeDue_some {n : Nat} {us rest : List Issued} {u : Issued} (h : takeDue n us = some (u, rest)) :
    ∃ xs ys, us = xs ++ u :: ys ∧ rest = xs ++ ys ∧ u.timer = 0 ∧ xs.length = n := by
  induction us generalizing u rest n with
  | nil => cases n <;> simp [takeDue] at h
  | cons v us ih =>
    cases n with
    | zero =>
      unfold takeDue at h
      split at h
      · cases h; exact ⟨[], us, rfl, rfl, by assumption, rfl⟩
      · cases h
    | succ n =>
      unfold takeDue at h
      obtain ⟨⟨w, r⟩, hw, he⟩ := Option.map_eq_some_iff.mp h
      cases he
      obtain ⟨xs, ys, rfl, rfl, h1, h2⟩ := ih hw
      exact ⟨v :: xs, ys, rfl, rfl, h1, by simp [h2]⟩

end Sys2Proof.Machine
end

