-- ==== Sys2Proof/Laws/Records.lean ====
section
/-! SUPPORT. Records created in order touch one transmitter alone, so that they commute with every other
change of the state; entries settled touch the tag tables and the transmitters alone. -/

namespace Sys2Proof.Laws
open Sys2Proof.Machine

/-- The B-link transmitter once records have been created in order. -/
def BLink.createAll (t : BLink) (rs : List BRecord) : BLink :=
  rs.foldl (fun t r => Machine.BLink.advance { t with control := t.control ++ [r] }) t

/-- Records created for the B-link change its transmitter alone. -/
theorem createAllB_eq (s : State) (rs : List BRecord) :
    s.createAllB rs = { s with bLink := BLink.createAll s.bLink rs } := by
  induction rs generalizing s with
  | nil => rfl
  | cons r rs ih =>
    have := ih (s.createB r)
    simp only [State.createAllB, List.foldl_cons] at this ⊢
    rw [this]
    rfl

/-- One record is a list of one. -/
theorem createB_eq (s : State) (r : BRecord) : s.createB r = s.createAllB [r] := rfl

/-- Records created one after another. -/
theorem createAllB_createAllB (s : State) (xs ys : List BRecord) :
    (s.createAllB xs).createAllB ys = s.createAllB (xs ++ ys) := (createAllB_append s xs ys).symm

/-- Nothing created. -/
@[simp] theorem createAllB_nil (s : State) : s.createAllB [] = s := rfl

/-- The part of the state that settling entries reads and writes. -/
structure Settled where
  frontTags : Table TagRecord 4096
  relocTags : Table TagRecord 512
  fLink     : FLink
  bLink     : BLink

/-- That part of a state. -/
def Settled.of (s : State) : Settled := ⟨s.frontTags, s.relocTags, s.fLink, s.bLink⟩

/-- The state with that part replaced. -/
def Settled.into (x : Settled) (s : State) : State :=
  { s with frontTags := x.frontTags, relocTags := x.relocTags, fLink := x.fLink, bLink := x.bLink }

/-- One entry settled reads that part alone. -/
theorem settleEntry_of (ok : Bool) (e : Entry) {s s' : State} (h : Settled.of s = Settled.of s') :
    Settled.of (settleEntry ok s e) = Settled.of (settleEntry ok s' e) := by
  simp only [Settled.of, Settled.mk.injEq] at h
  obtain ⟨h1, h2, h3, h4⟩ := h
  match e with
  | .pad => simp [Settled.of, settleEntry, h1, h2, h3, h4]
  | .sector ⟨.front t, _, _, _, _⟩ =>
    simp only [settleEntry, h1]
    split
    · split <;> simp [Settled.of, State.setFrontTag, State.createF, h1, h2, h3, h4]
    · simp [Settled.of, h1, h2, h3, h4]
  | .sector ⟨.reloc t, _, _, _, _⟩ =>
    simp only [settleEntry, h2]
    split
    · split <;> simp [Settled.of, State.setRelocTag, State.createB, h1, h2, h3, h4]
    · simp [Settled.of, h1, h2, h3, h4]

/-- Entries settled read that part alone. -/
theorem settleEntries_of (ok : Bool) (es : List Entry) {s s' : State} (h : Settled.of s = Settled.of s') :
    Settled.of (settleEntries ok es s) = Settled.of (settleEntries ok es s') := by
  induction es generalizing s s' with
  | nil => exact h
  | cons e es ih => exact ih (settleEntry_of ok e h)

/-- Entries settled change that part alone. -/
theorem settleEntries_into (ok : Bool) (es : List Entry) (s : State) :
    settleEntries ok es s = (Settled.of (settleEntries ok es s)).into s := by
  obtain ⟨a, b, c, d, h⟩ := settleEntries_changes s ok es
  rw [h]
  rfl

/-- Settling entries commutes with every change that leaves that part alone. -/
theorem settleEntries_comm (ok : Bool) (es : List Entry) {s s' : State} (h : Settled.of s = Settled.of s') :
    settleEntries ok es s' = (Settled.of (settleEntries ok es s)).into s' := by
  rw [settleEntries_of ok es h]
  exact settleEntries_into ok es s'

end Sys2Proof.Laws
end

