-- ==== Sys2Proof/Tests/Slice0.lean ====
section
/-! SUPPORT. Our own tests: records written out byte by byte from R173, one step at a time on small states
taken from the manual's worked sequences, and a witness for the hypotheses of every statement. -/

namespace Sys2Proof.Tests
open Sys2Proof Sys2Proof.Machine

set_option Elab.async false

/-! ## Small states -/

/-- What a command leaves. -/
def after (c : Instr) (s : State) : State :=
  match exec c s with
  | .next t => t
  | .fault _ => s
  | .refused _ => s

/-- What a step leaves. -/
def stepped (s : State) : State :=
  match step s with
  | .next t => t
  | .fault _ => s
  | .refused _ => s

/-- The state after reset with one lane context given. -/
def withLane (l : LaneId) (ln : Lane) : State := State.reset.setLane l ln

/-- Its lanes. -/
theorem withLane_get (l m : LaneId) (ln : Lane) :
    (withLane l ln).lanes.get m = if m = l then ln else Lane.reset := by
  simp only [withLane, State.setLane, Table.get_set, State.reset, Table.get_replicate]

/-- The state with a front inbound queue given. -/
def State.queued (s : State) (q : List FrontRec) : State := { s with frontQueue := q }

/-- The state with one ADMIN waiting, request id 9. -/
def State.asked (s : State) (r : AdminReq) : State := { s with frontQueue := [.admin ⟨9, r⟩] }

/-- Sector entries of group 5, stream 30, with one front tag. -/
def sectors (n : Nat) (tag : FrontTag := 7) : List Sector :=
  (List.range n).map fun i => ⟨.front tag, 5, 30, BitVec.ofNat 48 (100 + i), BitVec.ofNat 32 (200 + i)⟩

/-- A unit of 16 sector entries. -/
def unit16 (attempt : Nat := 1) : SealedUnit := ⟨(sectors 16).map .sector, attempt⟩

/-- An issued unit of 16 sector entries. -/
def issued16 (block : BlockAddr) (index attempt timer : Nat) : Issued :=
  ⟨(sectors 16).map .sector, block, index, attempt, false, timer⟩

/-- An OPEN lane of group 5 with block 100h at index 3. -/
def openLane : Lane :=
  { Lane.reset with state := .opened, owner := some 5, current := some 0x100, nextIndex := 3 }

/-- The settings after reset with U = 16. -/
def settings16 : Settings := { Settings.reset with unitSize := 16 }

/-- A record at the head of the front queue of a working, idle classifier with an empty relocation queue is
taken next. -/
theorem front_next (s : State) (r : FrontRec) (rest : List FrontRec) (h1 : s.inReset = false)
    (h2 : s.inHand = none) (h3 : s.warning = false) (h4 : s.relocQueue = []) :
    (State.queued s (r :: rest)).FrontIsNext r rest :=
  ⟨h1, h2, by simp [State.queued, h3], rfl, .inl h4⟩

/-! ## Well-formedness smoke, and records written out from R173 -/

/-- An ill-formed command: bytes of a well-formed HOLD-ON are no malformed record. -/
theorem test_wf_malformed_refused : Instr.wellFormed (.malformedRecord .back [0x44]) = false := by decide
/-- A kind code that is none of the link's is malformed. -/
theorem test_wf_malformed_taken : Instr.wellFormed (.malformedRecord .front [0x44]) = true := by decide
/-- A WRITE of 33 sectors, a RELOCATE of none and a list of 28 fields are ill formed. -/
theorem test_wf_records :
    InRecord.wellFormed (.write ⟨0, 0, 0, 33, 0, 0⟩) = false
      ∧ InRecord.wellFormed (.relocate ⟨0, 0, []⟩) = false
      ∧ InRecord.wellFormed (.admin ⟨0, .tableWrite 1 0 (List.replicate 28 (0, 0))⟩) = false := by decide
/-- WRITE: tenant 7, hint 2, length 20, tag 12Ch, LBA 060504030201h, handle 0D0C0B0Ah (R173). -/
theorem test_parse_write :
    parseRecord .front [0x01, 7, 2, 20, 0x2C, 0x01, 1, 2, 3, 4, 5, 6, 0x0A, 0x0B, 0x0C, 0x0D]
      = some (.write ⟨7, 2, 300, 20, 0x060504030201, 0x0D0C0B0A⟩) := by decide
/-- ADMIN with a TABLE-WRITE of GROUP 4: class 0 is lane 2, seal age 50 (R173). -/
theorem test_parse_table_write :
    parseRecord .front [0x02, 2, 0x34, 0x12, 22, 2, 4, 0, 2, 0, 2, 0, 0, 0, 0, 0, 0, 0, 5, 50, 0, 0, 0, 0, 0, 0, 0]
      = some (.admin ⟨0x1234, .tableWrite 2 4 [(0, 2), (5, 50)]⟩) := by decide
/-- ADMIN with a LANE-REQUEST DRAIN of lane 33 (R173). -/
theorem test_parse_lane_request :
    parseRecord .front [0x02, 3, 1, 0, 2, 33, 1] = some (.admin ⟨1, .laneRequest 33 .drain⟩) := by decide
/-- RESULT of lane 40, FAIL, block G = 0A0B0C0Dh, index 203 (R173). -/
theorem test_parse_result :
    parseRecord .back [0x41, 40, 1, 0x0D, 0x0C, 0x0B, 0x0A, 203, 0]
      = some (.result 40 .fail 0x0A0B0C0D 203) := by decide
/-- GRANT of lane 14, and RELOCATE of two sectors (R173). -/
theorem test_parse_grant_relocate :
    parseRecord .back [0x42, 14, 1, 0, 0, 0] = some (.grant 14 1)
      ∧ parseRecord .back [0x43, 70, 0, 0xFF, 0x03, 2, 1, 0, 0, 0, 0, 0, 2, 0, 0, 0, 3, 0, 0, 0, 0, 0, 4, 0, 0, 0]
        = some (.relocate ⟨70, 1023, [(1, 2), (3, 4)]⟩) := by decide
/-- A bit above a field's width, a wrong length and an unknown code make a record malformed (R162). -/
theorem test_parse_malformed :
    parseRecord .front [0x01, 7, 4, 20, 0, 0, 0, 0, 0, 0, 0, 0, 0, 0, 0, 0] = none
      ∧ parseRecord .back [0x44, 0] = none ∧ parseRecord .front [0x02, 8, 0, 0, 0] = none
      ∧ parseRecord .back [0x41, 64, 0, 0, 0, 0, 0, 0, 0] = none := by decide
/-- BACKOFF of tag 900, QUEUE-FULL, and GIVEBACK of lane 40, block G, BAD at 203, as bytes (R173). -/
theorem test_layout_out :
    layoutF (.backoff 900 .queueFull) = [0x82, 0x84, 0x03, 5]
      ∧ layoutB (.giveback 40 0x0A0B0C0D .bad (some 203)) = [0xC3, 40, 2, 0x0D, 0x0C, 0x0B, 0x0A, 203, 0] := by
  decide
/-- No word of the opcode table spells a command: no row has bits. -/
theorem test_no_word : decodeTableWord 16 0 = none := rfl

/-! ## One step of each command, on the manual's worked values -/

/-- RESET_END with HOLDUP_N asserted: the flush is complete at once, FLUSH-DONE leaves (R147, R145). -/
theorem test_reset_end_warned :
    let t := after .resetEnd (after .powerOn { State.reset with holdupPin := true })
    t.mode = .flushed ∧ t.fLink.sending = some .flushDone ∧ t.flushedLine = true ∧ t.attn = true := by
  decide +kernel
/-- LINE_RESET keeps the soft-reset count and holds the part in reset (R147, R150). -/
theorem test_line_reset :
    let t := after .lineReset { State.reset with softResets := 3 }
    t.softResets = 3 ∧ t.lastReset = .line ∧ t.inReset = true := by decide +kernel
/-- 9.2.1, step 1: lane 2 holds 10 entries and 1 ready unit; the unit seals with 6 pads (R143). -/
theorem test_holdup_asserted :
    let s := { withLane 2 { openLane with current := none, filling := sectors 10, fresh := [unit16] } with
      settings := settings16 }
    let t := after .holdupAsserted s
    t.mode = .flushing ∧ (t.lanes.get 2).fresh.length = 2 ∧ (t.lanes.get 2).sectorsPadded = 6
      ∧ t.latches = sourceBit .powerFlush ||| sourceBit .reserveEmpty := by decide +kernel
/-- FLUSHED becomes RUN when HOLDUP_N is deasserted (R146). -/
theorem test_holdup_deasserted :
    (after .holdupDeasserted { State.reset with mode := .flushed, warning := true }).mode = .run := by
  decide +kernel
/-- A tick while a sweep runs with the pending tick set is lost and raises TICK-LOST (R20). -/
theorem test_sample_tick_lost :
    let t := after .sampleTick { State.reset with
      sample := ⟨10, 10⟩, sweep := ⟨.running, 4, true, 65535, 0⟩ }
    t.sweep = ⟨.running, 4, true, 65535, 0⟩ ∧ t.latches = sourceBit .tickLost ∧ t.sample = ⟨0, 10⟩ := by
  decide +kernel
/-- The settings of table 2.6. -/
def settings26 : Settings :=
  { Settings.reset with shift := 2, dwell := 2, t1 := 512, t2 := 2048, t3 := 8192, hysteresis := 128 }
/-- Table 2.6, visit 2: from 545 with C = 5 the rate is 729 and the class steps up to 1, dwell 2. -/
theorem test_visit_up :
    let d := Stream.visit settings26 { Stream.reset with rate := 545, count := 5 }
    d.rate = 729 ∧ d.current = 1 ∧ d.dwell = 2 ∧ d.count = 0 := by decide
/-- Table 2.6, visits 4 and 11: no evaluation at dwell 1; from 471 in class 1 the class steps down. -/
theorem test_visit_dwell_down :
    let d := Stream.visit settings26 { Stream.reset with rate := 1827, count := 20, current := 1, dwell := 1 }
    let e := Stream.visit settings26 { Stream.reset with rate := 471, current := 1 }
    d.rate = 2651 ∧ d.current = 1 ∧ d.dwell = 0 ∧ e.rate = 353 ∧ e.current = 0 ∧ e.dwell = 2 := by decide
/-- The visit to stream 1023 with a pending tick starts the next sweep (R21). -/
theorem test_visit_ends_sweep :
    (after .visit { State.reset with sweep := ⟨.running, 1023, true, 0, 0xFFFFFFFF⟩ }).sweep
      = ⟨.running, 0, false, 0, 0⟩ := by decide +kernel
/-- 5.8: a flagged unit of 30 entries seals with 18 pads when A is issued at index 766, on B_LINK_SEND_END. -/
theorem test_issue_seals :
    let f : SealedUnit := ⟨(sectors 48).map .sector, 1⟩
    let s := withLane 12 { openLane with
      state := .draining, current := some 9, nextIndex := 766, fresh := [f, f, f, f], filling := sectors 30, sealPending := true }
    let ln := (after .bLinkSendEnd { s with bLink := ⟨some .holdClear, [], 5⟩ }).lanes.get 12
    ln.current = some 9 ∧ ln.nextIndex = 767 ∧ ln.fresh.length = 4 ∧ ln.sectorsPadded = 18 ∧ ln.sealPending = false
      ∧ ln.outstanding.map Issued.index = [766] ∧ ln.outstanding.map Issued.requeued = [false]
      ∧ ln.filling = [] := by decide +kernel
/-- 5.8: the issue at index 767 of 768 completes the block, and the reserve block becomes current. -/
theorem test_issue_completes :
    let f : SealedUnit := ⟨(sectors 48).map .sector, 1⟩
    let s := withLane 12 { openLane with current := some 9, nextIndex := 767, fresh := [f], reserve := [8], want := true }
    let t := after .bLinkSendEnd { s with bLink := ⟨some .holdClear, [], 5⟩ }
    (t.lanes.get 12).current = some 8 ∧ (t.lanes.get 12).nextIndex = 0 ∧ (t.lanes.get 12).blocksCompleted = 1
      ∧ t.bLink.lastServed = 12 ∧ t.bLink.control = [] := by decide +kernel
/-- 5.7.1: from last lane served 5, lanes 2, 5 and 9 issuable, the choice is lane 9 (R86). -/
theorem test_round_robin :
    let ln := { openLane with fresh := [unit16, unit16] }
    (State.nextLane { ((withLane 2 ln).setLane 5 ln).setLane 9 ln with bLink := ⟨none, [], 5⟩ }) = some 9 := by
  decide +kernel
/-- SEAL_AGE_EXPIRY at r = 4 flags the unit; F_LINK_SEND_END sends the next record (R76, R166). -/
theorem test_seal_age_flags :
    let s := withLane 3 { openLane with
      sealAge := some 0, filling := sectors 2, fresh := [unit16, unit16, unit16, unit16], current := none }
    ((after (.sealAgeExpiry 3) s).lanes.get 3).sealPending = true
      ∧ (after .fLinkSendEnd { s with fLink := ⟨some .flushDone, [.done 4 true]⟩ }).fLink
        = ⟨some (.done 4 true), []⟩ := by decide +kernel
/-- FAULT_RESIDENCY_EXPIRY: the timer is elapsed (R103). -/
theorem test_residency :
    ((after (.faultResidencyExpiry 8) (withLane 8 { openLane with
      state := .fault, residency := .running 0 })).lanes.get 8).residency = .elapsed := by decide +kernel
/-- 11.2.1: the ADMIN that leaves 16 slots free raises FHOLD (R164). -/
theorem test_admin_arrival_fhold :
    let q : FrontRec := .admin ⟨0, .conditionRead⟩
    let t := after (.adminArrival [4, 12, 0, 0]) { State.reset with frontQueue := List.replicate 239 q }
    t.frontQueue.length = 240 ∧ t.fhold = true := by decide +kernel
/-- 11.2.1: a WRITE of tag 900 at the full queue is answered BACKOFF QUEUE-FULL (R163). -/
theorem test_write_arrival_full :
    let q : FrontRec := .admin ⟨0, .conditionRead⟩
    let t := after (.writeArrival [0, 0, 1, 0x84, 0x03, 0, 0, 0, 0, 0, 0, 0, 0, 0, 0])
      { State.reset with frontQueue := List.replicate 256 q }
    t.outF = [.backoff 900 .queueFull] ∧ t.frontQueue.length = 256 ∧ t.latches = sourceBit .backoff := by
  decide +kernel
/-- A RELOCATE joins its queue (R165); a malformed one raises LINK-FORMAT (R162). -/
theorem test_relocate_arrival :
    (after (.relocateArrival [70, 0, 30, 0, 1, 1, 0, 0, 0, 0, 0, 2, 0, 0, 0]) State.reset).relocQueue
        = [⟨70, 30, [(1, 2)]⟩]
      ∧ (after (.relocateArrival [70, 0, 30, 0, 0]) State.reset).latches = sourceBit .linkFormat := by
  decide +kernel
/-- WRITE: the tag check, and the POWER refusal before it (R53). -/
theorem test_write_checks :
    let s := { State.reset.setFrontTag 7 ⟨true, 1, false, 1, 0⟩ with frontQueue := [.write ⟨0, 0, 7, 1, 0, 0⟩] }
    (after .write s).outF = [.backoff 7 .tagInUse]
      ∧ (after .write { s with mode := .flushed, warning := true }).outF = [.backoff 7 .power] := by
  decide +kernel
/-- 4.4.1: WRITE A of 20 sectors into 10 entries and 3 ready units; stream 30 is tenant 7, hint 2. -/
def state441 : State :=
  { ((withLane 6 { openLane with
        filling := sectors 10, fresh := [unit16, unit16, unit16], current := none, want := true }).setStream 30
        { Stream.reset with admitted := true, group := 5, count := 65520, written := 0xFFFFFFFFFA }) with
    groups := State.reset.groups.set 5 { Group.reset with laneMap := Group.noLanes.set 1 (some 6) }
    settings := settings16
    inHand := some (.write ⟨7, 2, 300, 20, 0, 0⟩) }
/-- 4.4.1 and 1.7: accepted; 6 sectors seal the unit, 14 begin the next; C saturates at 65,535. -/
theorem test_write_accepted :
    let t := after .writeClassification state441
    (t.lanes.get 6).filling.length = 14 ∧ (t.lanes.get 6).fresh.length = 4
      ∧ t.frontTags.get 300 = ⟨true, 20, false, 20, 30⟩ ∧ (t.streams.get 30).count = 65535
      ∧ (t.streams.get 30).written = 14 ∧ (t.lanes.get 6).sealAge = some 20 ∧ t.inHand = none := by
  decide +kernel
/-- 4.4.1: WRITE B of 3 sectors at room 2 is refused NO-ROOM, and the lane counts it. -/
theorem test_write_no_room :
    let s := after .writeClassification state441
    let t := after .writeClassification { s with inHand := some (.write ⟨7, 2, 301, 3, 0, 0⟩) }
    t.outF = [.backoff 301 .noRoom] ∧ (t.lanes.get 6).backoffs = 1 ∧ (t.frontTags.get 301).inUse = false := by
  decide +kernel
/-- RELOCATE is taken when the share count has reached the share (R50, 4.1.1). -/
theorem test_relocate_taken :
    let s := { State.reset with
      frontQueue := [.admin ⟨0, .conditionRead⟩], relocQueue := [⟨70, 30, [(1, 2)]⟩], shareCount := 4 }
    (after .relocate s).inHand = some (.relocate ⟨70, 30, [(1, 2)]⟩) ∧ (after .relocate s).shareCount = 0 := by
  decide +kernel
/-- A RELOCATE goes from COLD by the fallback order, for a stream that is not admitted (R6, R3). -/
theorem test_relocate_classified :
    let s := { state441 with
      inHand := some (.relocate ⟨70, 30, [(1, 2), (3, 4)]⟩)
      streams := State.reset.streams.set 30 { Stream.reset with group := 5 } }
    let t := after .relocateClassification s
    (t.lanes.get 6).filling.drop 10 = [⟨.reloc 70, 5, 30, 1, 2⟩, ⟨.reloc 70, 5, 30, 3, 4⟩]
      ∧ t.relocTags.get 70 = ⟨true, 2, false, 2, 30⟩ ∧ (t.streams.get 30).count = 0 := by decide +kernel
/-- STREAM read of index 1024 takes no access; one of 30 waits while the run is 8 (R1, R10). -/
theorem test_stream_read :
    let s := { State.reset with sweep := ⟨.running, 0, false, 0, 0⟩, classifierRun := 8 }
    (after .streamTableRead (State.asked s (.tableRead 1 1024))).outF = [.adminReply 9 .badIndex .none]
      ∧ (after .streamTableRead (State.asked s (.tableRead 1 30))).inHand
        = some (.streamAdmin ⟨9, .tableRead 1 30⟩) := by decide +kernel
/-- 1.7: R = 16,777,215 is stored as 16,776,960; class 3 with dwell 1 leaves dwell 1; C = 70,000 is refused. -/
theorem test_stream_write :
    let t := after .streamTableWrite (State.asked State.reset (.tableWrite 1 30 [(7, 16777215), (5, 3), (6, 1)]))
    (t.streams.get 30).rate = 16776960 ∧ (t.streams.get 30).current = 3 ∧ (t.streams.get 30).dwell = 1
      ∧ t.outF = [.adminReply 9 .ok .none]
      ∧ (after .streamTableWrite (State.asked State.reset (.tableWrite 1 30 [(8, 70000)]))).outF
        = [.adminReply 9 .badValue .none] := by decide +kernel
/-- GROUP read of group 127, and BAD-INDEX above it (R35, R48). -/
theorem test_group_read :
    (after .groupTableRead (State.asked State.reset (.tableRead 2 127))).outF
        = [.adminReply 9 .ok (.group Group.reset)]
      ∧ (after .groupTableRead (State.asked State.reset (.tableRead 2 128))).outF
        = [.adminReply 9 .badIndex .none] := by decide +kernel
/-- 3.7: group 4 claims lanes 2 and 5; two WANTs for 8 in ascending order, then the reply. -/
theorem test_group_write_claims :
    let t := after .groupTableWrite (State.asked State.reset (.tableWrite 2 4 [(0, 2), (1, 2), (3, 5)]))
    t.outB = [.want 2 8, .want 5 8] ∧ (t.lanes.get 2).owner = some 4 ∧ (t.lanes.get 5).state = .opening
      ∧ t.latches = sourceBit .reserveEmpty := by decide +kernel
/-- A lane of another owner is refused CONFLICT, ownership before state (R40). -/
theorem test_group_write_conflict :
    (after .groupTableWrite (State.asked (withLane 2 { openLane with state := .fault })
      (.tableWrite 2 4 [(0, 2)]))).outF = [.adminReply 9 .conflict .none] := by decide +kernel
/-- SETTINGS read after reset: the record of R170 and the sweep (R18). -/
theorem test_settings_read :
    (after .settingsTableRead (State.asked State.reset (.tableRead 3 0))).outF
      = [.adminReply 9 .ok (.settings Settings.reset Sweep.reset)] := by decide +kernel
/-- 11.6.1: U = 32 is refused STATE while a lane is OPEN, taken when all are CLOSED; U = 20 is BAD-VALUE. -/
theorem test_settings_write :
    (after .settingsTableWrite (State.asked (withLane 3 openLane) (.tableWrite 3 0 [(0, 32), (4, 5)]))).outF
        = [.adminReply 9 .state .none]
      ∧ (after .settingsTableWrite (State.asked State.reset
          (.tableWrite 3 0 [(0, 32), (2, 4)]))).settings = { Settings.reset with unitSize := 32, laneLimit := 4 }
      ∧ (after .settingsTableWrite (State.asked State.reset (.tableWrite 3 0 [(0, 20)]))).outF
        = [.adminReply 9 .badValue .none] := by decide +kernel
/-- LANE read of a CLOSED lane; lane 47 is the last (R167, R168). -/
theorem test_lane_read :
    (after .laneTableRead (State.asked State.reset (.tableRead 4 47))).outF
        = [.adminReply 9 .ok (.lane Lane.reset.summary)]
      ∧ (after .laneTableRead (State.asked State.reset (.tableRead 4 48))).outF
        = [.adminReply 9 .badIndex .none] := by decide +kernel
/-- R169: lane 47's slot 12 is index 623; an outstanding unit is shown with the run it was issued from. -/
theorem test_unit_read :
    let u := { issued16 1 2 1 0 with requeued := true }
    (after .unitTableRead (State.asked (withLane 47 { openLane with outstanding := [u, u, u, u] })
      (.tableRead 5 623))).outF = [.adminReply 9 .ok (.unit (.outstanding u))] := by decide +kernel
/-- FRONT-TAG and RELOC-TAG reads return the record (R64). -/
theorem test_tag_reads :
    (after .frontTagTableRead (State.asked (State.reset.setFrontTag 4095 ⟨true, 4, false, 8, 45⟩)
        (.tableRead 6 4095))).outF = [.adminReply 9 .ok (.tag ⟨true, 4, false, 8, 45⟩)]
      ∧ (after .relocTagTableRead (State.asked (State.reset.setRelocTag 511 ⟨true, 4, false, 8, 45⟩)
        (.tableRead 7 511))).outF = [.adminReply 9 .ok (.tag ⟨true, 4, false, 8, 45⟩)] := by decide +kernel
/-- RESET-CAUSE read (R150), and a TABLE-WRITE to it READ-ONLY, to table 9 BAD-TABLE (R167). -/
theorem test_reset_cause :
    (after .resetCauseTableRead (State.asked State.reset (.tableRead 8 0))).outF
        = [.adminReply 9 .ok (.resetCause .powerOn 0 .run false)]
      ∧ (after .tableWrite (State.asked State.reset (.tableWrite 8 0 []))).outF
        = [.adminReply 9 .readOnly .none]
      ∧ (after .tableWrite (State.asked State.reset (.tableWrite 9 0 []))).outF
        = [.adminReply 9 .badTable .none] := by decide +kernel
/-- DRAIN of a lane with nothing left: its blocks go back PARTIAL and UNUSED, then the reply (R97). -/
theorem test_drain :
    let t := after .drain (State.asked (withLane 3 { openLane with reserve := [7, 6] }) (.laneRequest 3 .drain))
    t.outB = [.giveback 3 0x100 .partlyUsed (some 3), .giveback 3 7 .unused none, .giveback 3 6 .unused none]
      ∧ (t.lanes.get 3).state = .closed ∧ t.outF = [.adminReply 9 .ok .none] := by decide +kernel
/-- 6.9: the STOP discards R1, settles tags 100 and 101 failed, and hands back the reserve block. -/
theorem test_stop :
    let r1 : SealedUnit := ⟨(sectors 8 100 ++ sectors 8 101).map .sector, 1⟩
    let s := withLane 8 { openLane with fresh := [r1], outstanding := [issued16 0x100 2 1 9], reserve := [9] }
    let s := (s.setFrontTag 100 ⟨true, 8, false, 8, 30⟩).setFrontTag 101 ⟨true, 8, false, 8, 30⟩
    let t := after .stop (State.asked s (.laneRequest 8 .stop))
    t.outF = [.done 100 true, .done 101 true, .adminReply 9 .ok .none]
      ∧ t.outB = [.giveback 8 9 .unused none] ∧ (t.lanes.get 8).residency = .running 10
      ∧ (t.lanes.get 8).current = some 0x100 ∧ t.latches = sourceBit .laneFault := by decide +kernel
/-- 6.9: CLEAR is refused STATE, then TOO-SOON, then taken. -/
theorem test_clear :
    let ln := { Lane.reset with state := .fault, owner := some 2, residency := .running 3 }
    let ask := fun ln => after .clear (State.asked (withLane 8 ln) (.laneRequest 8 .clear))
    (ask { ln with outstanding := [issued16 1 1 1 9] }).outF = [.adminReply 9 .state .none]
      ∧ (ask ln).outF = [.adminReply 9 .tooSoon .none]
      ∧ (ask { ln with residency := .elapsed }).lanes.get 8 = Lane.reset := by decide +kernel
/-- 10.5: after the CLEAR of the lane the latch still asserts ATTN_N; CONDITION-CLEAR releases it. -/
theorem test_condition_clear :
    let s := { State.reset with latches := sourceBit .laneFault }
    s.attn = true ∧ (after .conditionClear (State.asked s (.conditionClear 4))).attn = false
      ∧ (after .conditionClear (State.asked s (.conditionClear 0x800))).outF
        = [.adminReply 9 .badValue .none] := by decide +kernel
/-- CONDITION-READ reports without changing anything (R156). -/
theorem test_condition_read :
    let s := { State.reset with latches := sourceBit .programFail, time := 1722 }
    let t := after .conditionRead (State.asked s .conditionRead)
    t.latches = sourceBit .programFail ∧ t.outF = [.adminReply 9 .ok (.conditions
      { enables := 0x7FF, latchEnables := 0x7FF, latches := 1, liveLaneFault := false, liveReserve := false,
        liveFlush := false, warningSummary := true, errorSummary := false, attn := true, held := 0,
        oldest := none, lost := false, time := 1722 })] := by decide +kernel
/-- 10.5: the take returns A with the flag set, and clears the flag (R160). -/
theorem test_capture_take :
    let a : Capture := ⟨.programFail, 40, 5, 6, 1, some 30, 1000⟩
    let b : Capture := ⟨.programFail, 40, 5, 7, 1, some 30, 1200⟩
    let t := after .captureTake (State.asked { State.reset with captures := [a, b], captureLost := true } .captureTake)
    t.captures = [b] ∧ t.captureLost = false ∧ t.outF = [.adminReply 9 .ok (.capture (some a) true)] := by
  decide +kernel
/-- SOFT-RESET hands back a lane's blocks RESET, keeps the settings and sets the last lane served (R148, R85). -/
theorem test_soft_reset :
    let s := { withLane 8 { openLane with reserve := [9] } with settings := settings16, warning := true, mode := .flushed }
    let t := after .softReset (State.asked s .softReset)
    t.outB = [.giveback 8 0x100 .reset none, .giveback 8 9 .reset none] ∧ t.settings = settings16
      ∧ t.mode = .run ∧ t.warningDue = true ∧ t.softResets = 1 ∧ t.lanes.get 8 = Lane.reset
      ∧ (after .softReset (State.asked { s with bLink := ⟨none, [], 5⟩ } .softReset)).bLink.lastServed = 47 := by
  decide +kernel
/-- R149: the warning that still stands is taken as an assertion. -/
theorem test_warning_after_soft_reset :
    (after .warningTakenAfterSoftReset { State.reset with warning := true }).mode = .flushed := by decide +kernel
/-- Lane 40 of 8.6, step 0. -/
def lane86 : Lane :=
  { Lane.reset with
    state := .opened, owner := some 11, current := some 0x60, nextIndex := 205, reserve := [0x62, 0x61]
    fresh := [⟨(sectors 16 883).map .sector, 1⟩]
    outstanding := [⟨(sectors 16 880).map .sector, 0x60, 202, 1, false, 500⟩,
      ⟨(sectors 10 881 ++ sectors 6 882).map .sector, 0x60, 203, 1, false, 500⟩] }
/-- The state around it: the transmitter is busy elsewhere. -/
def state86 : State :=
  { (withLane 40 lane86).setFrontTag 880 ⟨true, 16, false, 16, 30⟩ with
    settings := settings16, bLink := ⟨some (.program 1 1 1 1 16 []), [], 1⟩ }
/-- 8.6, step 1: G is abandoned at 203, K is popped, B is re-queued ahead of D with attempt 2. -/
theorem test_result_fail :
    let t := after (.resultFail 40 0x60 203) state86
    t.bLink.control = [.giveback 40 0x60 .bad (some 203), .want 40 7]
      ∧ (t.lanes.get 40).current = some 0x62 ∧ (t.lanes.get 40).nextIndex = 0
      ∧ (t.lanes.get 40).reserve = [0x61]
      ∧ (t.lanes.get 40).ready.map SealedUnit.attempt = [2, 1] ∧ t.captures.length = 1
      ∧ t.latches = sourceBit .programFail := by decide +kernel
/-- 8.6, step 2: A's OK stands: DONE 880 OK. Step 7: a RESULT that matches nothing is unmatched. -/
theorem test_result_ok :
    (after (.resultOk 40 0x60 202) state86).outF = [.done 880 false]
      ∧ (after (.resultOk 40 0x60 204) state86).latches = sourceBit .unmatchedResult := by decide +kernel
/-- 8.6, step 6: an ABORTED in the current block abandons it and raises nothing. -/
theorem test_result_aborted :
    let t := after (.resultAborted 40 0x60 203) state86
    t.bLink.control.head? = some (.giveback 40 0x60 .bad (some 203)) ∧ t.latches = 0 ∧ t.captures = []
      ∧ (t.lanes.get 40).requeued.map SealedUnit.attempt = [2] := by decide +kernel
/-- 8.6, step 12: the expiry settles the unit failed, faults the lane and hands back the block FAULTED. -/
theorem test_result_timeout :
    let s := (withLane 40 { openLane with outstanding := [issued16 0x100 1 2 0] }).setFrontTag 7
      ⟨true, 16, false, 16, 30⟩
    let t := after (.resultTimeout 40 0) s
    t.outF = [.done 7 true] ∧ t.outB = [.giveback 40 0x100 .faulted none] ∧ (t.lanes.get 40).state = .fault
      ∧ t.latches = sourceBit .resultTimeout ||| sourceBit .laneFault ∧ t.captures.length = 1 := by decide +kernel
/-- 7.4.1: the first grant opens the lane and asks for 8 more; a second grant of it is DUPLICATE. -/
theorem test_grant :
    let s := withLane 14 { Lane.reset with state := .opening, owner := some 3, want := true }
    let t := after (.grant 14 0xA) s
    (t.lanes.get 14).state = .opened ∧ (t.lanes.get 14).current = some 0xA ∧ (t.lanes.get 14).want = true
      ∧ t.outB = [.want 14 8]
      ∧ (after (.grant 14 0xA) t).outB = [.want 14 8, .giveback 14 0xA .duplicate none] := by decide +kernel
/-- 8.7.1: HOLD-ON over a PROGRAM; its end creates the HOLD-ACK behind the RELOC-DONE. -/
theorem test_hold_on :
    let s := { State.reset with bLink := ⟨some (.program 12 1 1 1 16 []), [.relocDone 3 false], 12⟩ }
    let t := after .bLinkSendEnd (after .holdOn s)
    (after .holdOn s).hold = .stopping ∧ t.hold = .held
      ∧ t.bLink = ⟨some (.relocDone 3 false), [.holdAck], 12⟩ := by decide +kernel
/-- 8.7.1: HOLD-OFF before the HOLD-ACK is sent waits for it; HOLD-ON then is a violation (R140). -/
theorem test_hold_off :
    let s := { State.reset with hold := .held, bLink := ⟨some (.relocDone 3 false), [.holdAck], 12⟩ }
    let t := after .holdOff s
    t.hold = .releasing ∧ (after .holdOn t).latches = sourceBit .holdProtocol
      ∧ (after .holdOff { s with bLink := ⟨none, [], 12⟩ }).hold = .free := by decide +kernel
/-- MALFORMED_RECORD raises LINK-FORMAT; the bytes of a well-formed record are no such event (R162). -/
theorem test_malformed :
    (after (.malformedRecord .back [0x46]) State.reset).latches = sourceBit .linkFormat
      ∧ (after (.malformedRecord .back [0x44]) State.reset).latches = 0 := by decide +kernel
/-- An empty queue with nothing due: a millisecond passes. -/
theorem test_idle :
    (stepped { State.reset with sample := ⟨9, 10⟩ }).sample = ⟨10, 10⟩
      ∧ (stepped { State.reset with sample := ⟨9, 10⟩ }).time = 1 := by decide +kernel

/-- R49: left alone, the idle classifier takes a waiting record before any time passes. -/
theorem test_idle_takes :
    let w : WriteRec := ⟨0, 0, 1, 1, 0, 0⟩
    (stepped (State.queued State.reset [.write w])).inHand = some (.write w)
      ∧ (stepped (State.queued State.reset [.write w])).time = 0 := by decide +kernel
/-- A sweep at stream 1 as the tenth millisecond of its period is about to pass. -/
def sweeping : State := { State.reset with sweep := ⟨.running, 1, false, 0, 0⟩, sample := ⟨9, 10⟩ }
/-- The step with a waiting visit: the free value decides. -/
theorem sweeping_step : step sweeping = portOrTick .visit sweeping := by
  have h1 : dueCommand sweeping = none := by decide +kernel
  have h2 : sweeping.portCommand = some .visit := by decide +kernel
  simp [step, idleStep, show sweeping.pending = [] from rfl, show sweeping.inReset = false from rfl, h1, h2]
/-- R10: the visit ends before the tick. -/
theorem test_visit_before_tick (h : Config.accessEndsBeforeTick 0 = true) :
    (stepped sweeping).sweep.position = 2 ∧ (stepped sweeping).time = 0 := by
  simp only [stepped, sweeping_step, portOrTick, show sweeping.draws = 0 from rfl, h, if_true]
  decide +kernel
/-- R20: the tick comes first, so the sample tick finds the sweep RUNNING and sets the pending tick. -/
theorem test_tick_before_visit (h : Config.accessEndsBeforeTick 0 = false) :
    (stepped sweeping).sample = ⟨10, 10⟩
      ∧ (stepped (stepped sweeping)).sweep = ⟨.running, 1, true, 0, 0⟩ := by
  simp only [stepped, sweeping_step, portOrTick, show sweeping.draws = 0 from rfl, h]
  decide +kernel

/-! ## Witnesses: a state and operands that meet all hypotheses of a statement, clause by clause -/

/-- Quiet lanes with running timers; a lane of each first expiry, the others quiet; a record next of each kind;
a record in hand whose mode has left RUN; an access at the run of 7, a visit at the run of 8, and alone. -/
theorem witness_IdleTick :
    let s := { withLane 3 { openLane with sealAge := some 1, outstanding := [issued16 1 1 1 1] } with
      sample := ⟨9, 10⟩ }
    let w : WriteRec := ⟨0, 0, 1, 1, 0, 0⟩
    let sweep : Sweep := ⟨.running, 1023, false, 0, 0⟩
    s.pending = [] ∧ s.inReset = false ∧ ¬ (s.warning = true ∧ s.mode = .run) ∧ s.sample.count < s.sample.length
      ∧ (∀ l : LaneId, (s.lanes.get l).Quiet) ∧ s.sweep.state = .idle
      ∧ { s with warning := true }.mode = .run
      ∧ { openLane with sealAge := some 0 }.FirstDue 47 (.sealAgeExpiry 47)
      ∧ { openLane with outstanding := [issued16 1 1 1 1, issued16 1 2 1 0] }.FirstDue 47 (.resultTimeout 47 1)
      ∧ { openLane with residency := .running 0 }.FirstDue 47 (.faultResidencyExpiry 47)
      ∧ (∀ m : LaneId, m < 47 → ((withLane 47 { openLane with sealAge := some 0 }).lanes.get m).Quiet)
      ∧ (State.queued s [.write w]).FrontIsNext (.write w) []
      ∧ (State.asked s .softReset).FrontIsNext (.admin ⟨9, .softReset⟩) [] ∧ RowOf .softReset .softReset
      ∧ { s with relocQueue := [⟨0, 0, [(0, 0)]⟩] }.RelocIsNext ⟨0, 0, [(0, 0)]⟩ []
      ∧ { s with inHand := some (.write w), mode := .flushing }.mode ≠ .run
      ∧ { s with inHand := some (.write w), sweep := sweep, classifierRun := 7 }.PortServes .writeClassification
      ∧ { s with inHand := some (.write w), sweep := sweep, classifierRun := 8 }.PortServes .visit
      ∧ { s with inHand := some (.streamAdmin ⟨9, .tableRead 1 0⟩) }.PortServes .streamTableRead
      ∧ { s with sweep := sweep }.PortServes .visit := by
  dsimp only
  refine ⟨rfl, rfl, by decide, by decide, fun l => ?_, rfl, rfl, .inl ⟨rfl, rfl⟩,
    .inr (.inl ⟨by decide, 1, [issued16 1 1 1 1], [], issued16 1 2 1 0, rfl, rfl, by decide, rfl, rfl⟩),
    .inr (.inr ⟨by decide, by decide, rfl, rfl⟩), fun m hm => ?_, front_next _ _ _ rfl rfl rfl rfl,
    front_next _ _ _ rfl rfl rfl rfl, by simp [RowOf], ⟨rfl, rfl, by decide, rfl, .inl rfl⟩, by decide,
    .inl ⟨.inr (by decide), .inl ⟨_, rfl, rfl, rfl⟩⟩, .inr ⟨rfl, rfl, .inr ⟨Nat.le_refl 8, .inl rfl⟩⟩,
    .inl ⟨.inl rfl, .inr (.inr ⟨_, rfl, by simp [RowOf]⟩)⟩, .inr ⟨rfl, rfl, .inl rfl⟩⟩
  · simp only [withLane_get]
    split <;> unfold Lane.Quiet <;> decide
  · rw [withLane_get, if_neg (by rintro rfl; exact absurd hm (by decide))]
    unfold Lane.Quiet; decide
theorem witness_HeldInReset : (after .powerOn State.reset).inReset = true := rfl
/-- What power-on and line reset leave meets the conditions, with the input at both levels. -/
theorem witness_ResetEnd :
    let s := after .powerOn State.reset
    let t := after .lineReset { State.reset with holdupPin := true }
    s.inReset = true ∧ s.mode = .run ∧ (∀ l, s.lanes.get l = Lane.reset) ∧ s.fLink = ⟨none, []⟩
      ∧ s.bLink.sending = none ∧ s.bLink.control = [] ∧ s.holdupPin = false
      ∧ t.inReset = true ∧ t.mode = .run ∧ (∀ l, t.lanes.get l = Lane.reset) ∧ t.fLink = ⟨none, []⟩
      ∧ t.bLink.sending = none ∧ t.bLink.control = [] ∧ t.holdupPin = true := by
  refine ⟨rfl, rfl, fun l => Table.get_replicate .., rfl, rfl, rfl, rfl, rfl, rfl,
    fun l => Table.get_replicate .., rfl, rfl, rfl, rfl⟩
/-- HOLDUP_N_ASSERTED with and without held work, the standing warning, and a level taken while FLUSHING. -/
theorem witness_HoldupLine :
    let s := withLane 2 { openLane with filling := sectors 1 }
    s.inReset = false ∧ s.mode = .run ∧ (∃ l, (s.lanes.get l).holdsWork = true)
      ∧ (∀ l, (State.reset.lanes.get l).holdsWork = false)
      ∧ { s with warning := true }.warning = true ∧ { s with mode := .flushing }.mode ≠ .run :=
  ⟨rfl, rfl, ⟨2, by decide +kernel⟩, by decide +kernel, rfl, by decide⟩
theorem witness_SoftReset : (State.asked State.reset .softReset).FrontIsNext (.admin ⟨9, .softReset⟩) [] :=
  front_next _ _ _ rfl rfl rfl rfl
/-- The idle sweep, the clear pending tick and the set one, each at the due count. -/
theorem witness_SampleTick :
    let s := { State.reset with sample := ⟨10, 10⟩ }
    s.inReset = false ∧ s.sample.length ≤ s.sample.count ∧ s.sweep.state = .idle
      ∧ { s with sweep := ⟨.running, 0, false, 0, 0⟩ }.sweep.pending = false
      ∧ { s with sweep := ⟨.running, 0, true, 65535, 0⟩ }.sweep.pending = true :=
  ⟨rfl, Nat.le_refl 10, rfl, rfl, rfl⟩
/-- A visit with the classifier idle, and one at the run of 8 with a record in hand. -/
theorem witness_Visit :
    let s := { State.reset with sweep := ⟨.running, 1023, true, 0, 0⟩, classifierRun := 8 }
    s.inReset = false ∧ s.sweep.state = .running ∧ s.settings.Lawful ∧ s.inHand = none ∧ 8 ≤ s.classifierRun := by
  refine ⟨rfl, rfl, ?_, rfl, Nat.le_refl 8⟩
  unfold Settings.Lawful; decide
theorem witness_RateStaysBetween : Stream.reset.track = true := rfl
theorem witness_ClassMovesOneStep :
    exec .visit { State.reset with sweep := ⟨.running, 0, false, 0, 0⟩ }
      = .next (after .visit { State.reset with sweep := ⟨.running, 0, false, 0, 0⟩ }) := rfl
/-- Each of the four accesses in hand, at the runs 7 and 8, and a STREAM request next at the run 8. -/
theorem witness_PortArbiter :
    let s := { State.reset with sweep := ⟨.running, 0, false, 0, 0⟩ }
    s.inReset = false ∧ s.sweep.state = .running ∧ s.mode = .run
      ∧ { s with inHand := some (.write ⟨0, 0, 0, 1, 0, 0⟩) }.inHand = some (.write ⟨0, 0, 0, 1, 0, 0⟩)
      ∧ { s with inHand := some (.relocate ⟨0, 0, [(0, 0)]⟩) }.inHand = some (.relocate ⟨0, 0, [(0, 0)]⟩)
      ∧ { s with inHand := some (.streamAdmin ⟨9, .tableRead 1 1023⟩) }.inHand
          = some (.streamAdmin ⟨9, .tableRead 1 1023⟩) ∧ (1023 : BitVec 16).toNat < 1024
      ∧ { s with inHand := some (.streamAdmin ⟨9, .tableWrite 1 1023 []⟩) }.inHand
          = some (.streamAdmin ⟨9, .tableWrite 1 1023 []⟩)
      ∧ { s with classifierRun := 7 }.classifierRun < 8 ∧ 8 ≤ { s with classifierRun := 8 }.classifierRun
      ∧ ∀ req, (State.asked { s with classifierRun := 8 } req).FrontIsNext (.admin ⟨9, req⟩) [] :=
  ⟨rfl, rfl, rfl, rfl, rfl, rfl, by decide, rfl, by decide, by decide, fun _ => front_next _ _ _ rfl rfl rfl rfl⟩
/-- Indexes 1023 and 1024, the port free and not free, the request next and in hand. -/
theorem witness_StreamRead :
    let s := { State.reset with sweep := ⟨.running, 0, false, 0, 0⟩ }
    (State.asked s (.tableRead 1 1023)).FrontIsNext (.admin ⟨9, .tableRead 1 1023⟩) []
      ∧ (1023 : StreamId).val = (1023 : BitVec 16).toNat ∧ { s with classifierRun := 7 }.PortFree
      ∧ ¬ { s with classifierRun := 8 }.PortFree
      ∧ (State.asked s (.tableRead 1 1024)).FrontIsNext (.admin ⟨9, .tableRead 1 1024⟩) []
      ∧ 1024 ≤ (1024 : BitVec 16).toNat :=
  ⟨front_next _ _ _ rfl rfl rfl rfl, rfl, .inr (by decide), by rintro (h | h) <;> revert h <;> decide,
    front_next _ _ _ rfl rfl rfl rfl, by decide⟩
/-- Every field of a STREAM write at a boundary of its range. -/
def fields1 : List (Byte × BitVec 64) :=
  [(0, 1), (1, 127), (2, 0), (3, BitVec.allOnes 64), (4, 3), (5, 3), (6, 15), (7, BitVec.allOnes 64), (8, 65535)]
theorem witness_StreamWriteStores :
    (State.asked State.reset (.tableWrite 1 1023 fields1)).FrontIsNext (.admin ⟨9, .tableWrite 1 1023 fields1⟩) []
      ∧ State.reset.PortFree ∧ (1023 : StreamId).val = (1023 : BitVec 16).toNat
      ∧ (fields1.map Prod.fst).Nodup ∧ ∀ p ∈ fields1, StreamValue p.1.toNat p.2 := by
  refine ⟨front_next _ _ _ rfl rfl rfl rfl, .inl rfl, rfl, by decide, ?_⟩
  simp [fields1, StreamValue]
/-- A GROUP write of every field, naming a CLOSED lane twice and an OPEN lane of the group. -/
def fields2 : List (Byte × BitVec 64) :=
  [(0, 47), (1, 47), (2, 2), (3, BitVec.allOnes 64), (4, 1), (5, 1000)]
theorem witness_GroupWriteClaims :
    let s := State.asked (withLane 2 { openLane with owner := some 127 }) (.tableWrite 2 127 fields2)
    s.FrontIsNext (.admin ⟨9, .tableWrite 2 127 fields2⟩) [] ∧ (127 : GroupId).val = (127 : BitVec 16).toNat
      ∧ (∀ l, (s.lanes.get l).StateLaw) ∧ (fields2.map Prod.fst).Nodup
      ∧ (∀ p ∈ fields2, GroupValue p.1.toNat p.2) ∧ ∀ l ∈ namedBy fields2, s.MayName 127 l := by
  refine ⟨front_next _ _ _ rfl rfl rfl rfl, rfl, ?_, by decide, ?_, ?_⟩
  · intro l
    simp only [State.asked, withLane_get]
    split <;> simp [openLane, Lane.StateLaw, Lane.reset, Lane.ready]
  · simp [fields2, GroupValue]
  · have hn : namedBy fields2 = [47, 47, 2] := by decide
    rw [hn]
    unfold State.MayName
    decide +kernel

/-- The three outcomes of the last checks: thresholds that do not rise, a guarded change while a lane is not
CLOSED, and an accepted write with the lane limit at its bounds. -/
theorem witness_SettingsWriteStores :
    let ok : List (Byte × BitVec 64) := [(0, 16), (1, 2048), (2, 1), (3, 255), (7, 16776960), (14, 2047)]
    (State.asked State.reset (.tableWrite 3 0 ok)).FrontIsNext (.admin ⟨9, .tableWrite 3 0 ok⟩) []
      ∧ (ok.map Prod.fst).Nodup ∧ (∀ p ∈ ok, SettingValue p.1.toNat p.2)
      ∧ (∀ p ∈ [((5 : Byte), (16776960 : BitVec 64))], SettingValue p.1.toNat p.2)
      ∧ State.reset.settings.Lawful ∧ (∀ l, (State.reset.lanes.get l).state = .closed)
      ∧ ((withLane 47 openLane).lanes.get 47).state ≠ .closed := by
  refine ⟨front_next _ _ _ rfl rfl rfl rfl, by decide, ?_, ?_, ?_, by decide +kernel, by decide +kernel⟩
  · simp [SettingValue]
  · simp [SettingValue]
  · unfold Settings.Lawful; decide
/-- A refused write of each table, for each check, at the first value out of range. -/
theorem witness_RefusedWritesStoreNothing :
    (∀ code index fields, (State.asked State.reset (.tableWrite code index fields)).FrontIsNext
        (.admin ⟨9, .tableWrite code index fields⟩) [])
      ∧ 1024 ≤ (1024 : BitVec 16).toNat ∧ State.reset.PortFree
      ∧ { State.reset with inHand := some (.streamAdmin ⟨9, .tableWrite 1 1023 []⟩) }.inHand
          = some (.streamAdmin ⟨9, .tableWrite 1 1023 []⟩)
      ∧ ¬ StreamValue 8 65536 ∧ ¬ GroupValue 5 1001 ∧ ¬ SettingValue 0 20
      ∧ ¬ ([((1 : Byte), (0 : BitVec 64)), (1, 0)].map Prod.fst).Nodup
      ∧ namedBy [(0, 2)] = [] ++ (2 : LaneId) :: [] ∧ ¬ (withLane 2 openLane).MayName 4 2 := by
  refine ⟨fun _ _ _ => front_next _ _ _ rfl rfl rfl rfl, by decide, .inl rfl, rfl, ?_, ?_, ?_, by decide,
    by decide, ?_⟩
  · simp [StreamValue]
  · simp [GroupValue]
  · simp [SettingValue]
  · unfold State.MayName; decide +kernel
/-- Every read of a table, at any index. -/
theorem witness_reads (code : Byte) (index : BitVec 16) :
    (State.asked State.reset (.tableRead code index)).FrontIsNext (.admin ⟨9, .tableRead code index⟩) [] :=
  front_next _ _ _ rfl rfl rfl rfl
/-- The indexes at both sides of each table's end, slots 0, 1, 8, 9 and 12 of lane 47 (TableReads,
LaneAndUnitReads, TableWriteRefused). -/
theorem witness_read_indexes :
    (127 : GroupId).val = (127 : BitVec 16).toNat ∧ 128 ≤ (128 : BitVec 16).toNat
      ∧ (0 : BitVec 16).toNat < 1 ∧ 1 ≤ (1 : BitVec 16).toNat
      ∧ (4095 : FrontTag).val = (4095 : BitVec 16).toNat ∧ 4096 ≤ (4096 : BitVec 16).toNat
      ∧ (511 : RelocTag).val = (511 : BitVec 16).toNat ∧ 512 ≤ (512 : BitVec 16).toNat
      ∧ (47 : LaneId).val = (47 : BitVec 16).toNat ∧ 48 ≤ (48 : BitVec 16).toNat
      ∧ (∀ slot ∈ [0, 1, 8, 9, 12], (BitVec.ofNat 16 (611 + slot)).toNat = (47 : LaneId).val * 13 + slot)
      ∧ 624 ≤ (624 : BitVec 16).toNat ∧ 8 < (9 : Byte).toNat := by decide
/-- A WRITE next, and a RELOCATE next with the share used up, in each mode and tag state. -/
theorem witness_IntakeChecks :
    let w : WriteRec := ⟨0, 0, 4095, 32, 0, 0⟩
    let x : RelocateRec := ⟨511, 1023, [(0, 0)]⟩
    (State.queued State.reset [.write w]).FrontIsNext (.write w) []
      ∧ { State.queued State.reset [.write w] with relocQueue := [x], shareCount := 4 }.RelocIsNext x []
      ∧ State.reset.mode = .run ∧ { State.reset with mode := .flushed }.mode ≠ .run
      ∧ (State.reset.frontTags.get w.tag).inUse = false
      ∧ ((State.reset.setFrontTag 4095 ⟨true, 1, false, 1, 0⟩).frontTags.get w.tag).inUse = true
      ∧ (State.reset.relocTags.get x.tag).inUse = false
      ∧ ((State.reset.setRelocTag 511 ⟨true, 1, false, 1, 0⟩).relocTags.get x.tag).inUse = true :=
  ⟨front_next _ _ _ rfl rfl rfl rfl, ⟨rfl, rfl, by decide, rfl, .inr (Nat.le_refl 4)⟩, rfl, by decide,
    by decide +kernel, by decide +kernel, by decide +kernel, by decide +kernel⟩
/-- 4.4.1: WRITE A with room 22; at length 22 it still fits, at 23 it does not. -/
theorem witness_WriteAccepted :
    state441.inReset = false ∧ state441.inHand = some (.write ⟨7, 2, 300, 20, 0, 0⟩) ∧ state441.mode = .run
      ∧ state441.PortFree ∧ (state441.streams.get 30).admitted = true
      ∧ (state441.groups.get (state441.streams.get 30).group).search
          ((state441.streams.get 30).pinned.getD (state441.streams.get 30).current) = some 6
      ∧ 22 ≤ (state441.lanes.get 6).room state441.settings.unitSize
      ∧ (state441.lanes.get 6).room state441.settings.unitSize < 23 :=
  ⟨rfl, rfl, rfl, .inl rfl, by decide +kernel, by decide +kernel, by decide +kernel, by decide +kernel⟩
/-- The refusals of a WRITE in hand: a mode not RUN, a stream not admitted, a group with no lane. -/
theorem witness_WriteRefused :
    { state441 with mode := .flushing }.mode ≠ .run
      ∧ ((state441.setStream 30 Stream.reset).streams.get 30).admitted = false
      ∧ ∀ c, ((State.reset.groups).get 5).laneMap.get c = none :=
  ⟨by decide, by decide +kernel, by decide +kernel⟩
/-- A RELOCATE in hand over the lane of 4.4.1, and one over a full lane. -/
theorem witness_RelocateClassified :
    let s := { state441 with inHand := some (.relocate ⟨70, 30, [(1, 2)]⟩) }
    let t := s.setLane 6 { openLane with filling := sectors 16, fresh := [unit16, unit16, unit16, unit16] }
    s.inReset = false ∧ s.mode = .run ∧ s.PortFree
      ∧ (s.groups.get (s.streams.get 30).group).search ((s.streams.get 30).relocClass.getD 0) = some 6
      ∧ 1 ≤ (s.lanes.get 6).room s.settings.unitSize ∧ (t.lanes.get 6).room t.settings.unitSize < 1 :=
  ⟨rfl, rfl, .inl rfl, by decide +kernel, by decide +kernel, by decide +kernel⟩
/-- Sectors that use the room up, with 3 and with 4 units ready. -/
theorem witness_AppendPlaces :
    let a : Lane := { openLane with filling := sectors 10, fresh := [unit16, unit16, unit16] }
    let b : Lane := { openLane with filling := sectors 10, fresh := [unit16, unit16, unit16, unit16] }
    a.WaitLaw 16 ∧ b.WaitLaw 16 ∧ a.filling.length ≤ 16
      ∧ (sectors 22).length = a.room 16 ∧ (sectors 6).length = b.room 16 := by
  dsimp only
  refine ⟨?_, ?_, by decide, by decide, by decide⟩ <;> unfold Lane.WaitLaw <;> decide
/-- A due seal age over 1 and over 15 entries, a due residency. -/
theorem witness_LaneTimersExpire :
    let s := { withLane 3 { openLane with sealAge := some 0, filling := sectors 15, residency := .running 0 } with
      settings := settings16 }
    s.inReset = false ∧ (s.lanes.get 3).sealAge = some 0 ∧ (s.lanes.get 3).filling ≠ []
      ∧ (s.lanes.get 3).filling.length < s.settings.unitSize ∧ (s.lanes.get 3).residency = .running 0 := by
  decide +kernel
/-- Records being sent of every kind the clauses name. -/
theorem witness_SendEnds :
    let p : BRecord := .program 1 1 1 1 16 []
    { State.reset with fLink := ⟨some .flushDone, []⟩ }.fLink.sending = some .flushDone
      ∧ { State.reset with bLink := ⟨some p, [], 1⟩, hold := .stopping }.bLink.sending = some p
      ∧ { State.reset with bLink := ⟨some .holdAck, [], 1⟩, hold := .releasing }.bLink.sending = some .holdAck
      ∧ (∀ l b i n U es, BRecord.holdClear ≠ .program l b i n U es) :=
  ⟨rfl, rfl, rfl, fun _ _ _ _ _ _ h => by cases h⟩
/-- A transmitter that sends, one with a control record, an idle one, and the lane nearest after the last. -/
theorem witness_TransmitterChooses :
    let s := withLane 47 { openLane with fresh := [unit16] }
    s.bLink.sending = none ∧ s.bLink.control = [] ∧ s.hold = .free ∧ (s.lanes.get 47).Issuable
      ∧ (∀ m : LaneId, (s.lanes.get m).Issuable →
        (47 + 47 - s.bLink.lastServed.val) % 48 ≤ (m.val + 47 - s.bLink.lastServed.val) % 48)
      ∧ (∀ l, ¬ (State.reset.lanes.get l).Issuable) := by
  refine ⟨rfl, rfl, rfl, ?_, ?_, ?_⟩ <;> unfold Lane.Issuable <;> decide +kernel
/-- A re-queued head below the last index, a fresh head at it with no reserve block and with one. -/
theorem witness_IssueOfAUnit :
    let a := { openLane with requeued := [unit16 2], current := some 9, nextIndex := 766 }
    let b := { openLane with fresh := [unit16], current := some 9, nextIndex := 767 }
    let c := { b with reserve := [8] }
    a.requeued = unit16 2 :: [] ∧ a.fresh = [] ∧ a.current = some 9 ∧ a.nextIndex = 766 ∧ a.state = .opened
      ∧ 766 + 1 < Settings.reset.unitsPerBlock
      ∧ b.requeued = [] ∧ b.fresh = unit16 :: [] ∧ b.reserve = [] ∧ Settings.reset.unitsPerBlock ≤ 767 + 1
      ∧ c.reserve = 8 :: [] := by decide +kernel
/-- FLUSHING with every lane empty, and with one lane that is not. -/
theorem witness_FlushCompletion :
    { State.reset with mode := .flushing }.mode = .flushing
      ∧ (∀ l, (State.reset.lanes.get l).filling = [] ∧ (State.reset.lanes.get l).ready = []
        ∧ (State.reset.lanes.get l).outstanding = [])
      ∧ ∃ l, ¬ (((withLane 3 { openLane with filling := sectors 1 }).lanes.get l).filling = []
        ∧ ((withLane 3 { openLane with filling := sectors 1 }).lanes.get l).ready = []
        ∧ ((withLane 3 { openLane with filling := sectors 1 }).lanes.get l).outstanding = []) :=
  ⟨rfl, by decide +kernel, 3, by decide +kernel⟩
/-- A lane request of any action for any lane field is next; lanes 47 and 48. -/
theorem witness_lane_request (s : State) (lane : LaneField) (action : LaneAction) (h1 : s.inReset = false)
    (h2 : s.inHand = none) (h3 : s.warning = false) (h4 : s.relocQueue = []) :
    (State.asked s (.laneRequest lane action)).FrontIsNext (.admin ⟨9, .laneRequest lane action⟩) [] :=
  front_next _ _ _ h1 h2 h3 h4
/-- The lanes that DRAIN, STOP and CLEAR find: OPEN with and without work, the other states, FAULT with and
without outstanding units, residency running and elapsed. -/
theorem witness_Drain_Stop_Clear :
    let w := { openLane with filling := sectors 1 }
    let f := { openLane with state := .fault, residency := .running 1 }
    (47 : LaneField).val = (47 : LaneId).val ∧ 48 ≤ (48 : LaneField).val
      ∧ ((withLane 47 w).lanes.get 47).state = .opened ∧ ((withLane 47 w).lanes.get 47).holdsWork = true
      ∧ ((withLane 47 openLane).lanes.get 47).holdsWork = false
      ∧ ((withLane 47 { w with state := .draining }).lanes.get 47).state = .draining
      ∧ (State.reset.lanes.get 47).state = .closed
      ∧ ((withLane 47 f).lanes.get 47).state = .fault ∧ ((withLane 47 f).lanes.get 47).outstanding = []
      ∧ ((withLane 47 f).lanes.get 47).residency ≠ .elapsed
      ∧ ((withLane 47 { f with outstanding := [issued16 1 1 1 9] }).lanes.get 47).outstanding ≠ []
      ∧ ((withLane 47 { f with residency := .elapsed }).lanes.get 47).residency = .elapsed := by
  decide +kernel
/-- A lane field of 63, a CLOSED lane, and an OPEN lane that holds another unit. -/
theorem witness_UnmatchedResult :
    48 ≤ (63 : LaneField).val ∧ (State.reset.lanes.get 47).state = .closed
      ∧ ∀ u ∈ ((withLane 3 { openLane with outstanding := [issued16 1 2 1 9] }).lanes.get 3).outstanding,
        ¬ (u.block = 1 ∧ u.index = (3 : Fin 2048).val) := by decide +kernel
/-- The lane around one outstanding unit, between an older unit and a younger one. -/
def around (ln : Lane) (u : Issued) : Lane :=
  { ln with outstanding := [issued16 0x99 1 1 9] ++ u :: [issued16 0x99 2 1 9] }
/-- A matched RESULT in OPEN, in DRAINING with work left and without, for attempts 1, 2 and 3, in the current
block and in another, with and without a reserve block; and in FAULT (ResultOk, FailedUnitRequeued,
UnitGivenUp). -/
theorem witness_matched_results :
    let u := issued16 0x100 2 2 9
    let ln := { openLane with outstanding := [issued16 0x99 1 1 9] ++ [issued16 0x99 2 1 9] }
    let d := { openLane with state := .draining }
    (3 : LaneField).val = (3 : LaneId).val ∧ u.index = (2 : Fin 2048).val
      ∧ (withLane 3 (around ln u)).lanes.get 3 = { ln with outstanding := [issued16 0x99 1 1 9] ++ u :: [issued16 0x99 2 1 9] }
      ∧ (∀ v ∈ [issued16 0x99 1 1 9], ¬ (v.block = u.block ∧ v.index = u.index))
      ∧ ln.state = .opened ∧ ln.holdsWork = true
      ∧ (withLane 3 { d with outstanding := [] ++ u :: [] }).lanes.get 3 = { d with outstanding := [] ++ u :: [] }
      ∧ d.state = .draining ∧ d.holdsWork = false
      ∧ ln.current = some u.block ∧ u.attempt < 3 ∧ ln.reserve = []
      ∧ { ln with reserve := [7] }.reserve = 7 :: []
      ∧ { ln with current := some 0x55 }.current ≠ some u.block
      ∧ 3 ≤ (issued16 0x100 2 3 9).attempt
      ∧ { d with state := .fault }.state = .fault ∧ { d with state := .fault }.outstanding = [] := by
  refine ⟨rfl, rfl, by decide +kernel, by decide +kernel, rfl, by decide +kernel, by decide +kernel, rfl,
    by decide +kernel, rfl, by decide, rfl, rfl, by decide, by decide, rfl, rfl⟩
/-- A due result timer at place 1 of OPEN, and alone in FAULT with a current block. -/
theorem witness_ResultTimeout :
    let u := issued16 0x100 2 2 0
    let ln := { openLane with outstanding := [issued16 0x99 1 1 9] ++ [issued16 0x99 2 1 9] }
    let f := { openLane with state := .fault }
    (withLane 3 (around ln u)).lanes.get 3 = { ln with outstanding := [issued16 0x99 1 1 9] ++ u :: [issued16 0x99 2 1 9] }
      ∧ [issued16 0x99 1 1 9].length = (1 : Fin 4).val ∧ u.timer = 0 ∧ ln.state = .opened
      ∧ (withLane 3 { f with outstanding := [] ++ u :: [] }).lanes.get 3 = { f with outstanding := [] ++ u :: [] }
      ∧ f.state = .fault ∧ f.outstanding = [] ++ [] ∧ f.current = some 0x100 := by decide +kernel
/-- 8.6, step 11, in small: the entries end tag 9 and then tag 7; a tag with more entries elsewhere goes on. -/
theorem test_ended_tags :
    endedTags (fun x => if x = .front 8 then 3 else 2)
      ((sectors 1 7 ++ sectors 2 9 ++ sectors 2 8 ++ sectors 1 7).map .sector ++ [.pad])
      = [.front 9, .front 7] := by decide +kernel
/-- A unit of 16 entries of one tag, whose remaining count is 16 and so is freed. -/
theorem witness_Settling :
    let s := State.reset.setFrontTag 7 ⟨true, 16, false, 16, 30⟩
    let n := fun x : TagRef => (unit16.entries).countP (Entry.carries x)
    let left := fun x : TagRef => match x with
      | .front i => (s.frontTags.get i).remaining
      | .reloc i => (s.relocTags.get i).remaining
    (∀ i, left (.front i) = (s.frontTags.get i).remaining ∧ n (.front i) ≤ left (.front i)
        ∧ ((s.frontTags.get i).inUse = true ↔ 1 ≤ left (.front i)))
      ∧ (∀ i, left (.reloc i) = (s.relocTags.get i).remaining ∧ n (.reloc i) ≤ left (.reloc i)
        ∧ ((s.relocTags.get i).inUse = true ↔ 1 ≤ left (.reloc i))) := by
  have hu : ∀ x : TagRef, (unit16.entries).countP (Entry.carries x) = if x = .front 7 then 16 else 0 := by
    intro x
    split
    · next h => subst h; decide
    · next h =>
      rw [List.countP_eq_zero]
      intro e he
      obtain ⟨i, _, rfl⟩ := List.mem_map.mp he
      obtain ⟨j, _, rfl⟩ := List.mem_map.mp ‹i ∈ sectors 16›
      simpa [Entry.carries] using Ne.symm h
  refine ⟨fun i => ⟨rfl, ?_⟩, fun i => ⟨rfl, ?_⟩⟩
  · simp only [hu, State.setFrontTag, Table.get_set]
    split <;> simp_all [State.reset, TagRecord.reset]
  · simp [hu, State.reset, TagRecord.reset]
/-- Lane 48; a DRAINING lane with a current block; a block held in reserve; a stack of 8. -/
theorem witness_GrantRefused :
    let r : List BlockAddr := [8, 7, 6, 5, 4, 3, 2, 1]
    48 ≤ (48 : LaneField).val ∧ (State.reset.lanes.get 14).state = .closed
      ∧ ((withLane 3 { openLane with state := .draining }).lanes.get 3).current ≠ none
      ∧ 8 ∈ (withLane 3 { openLane with reserve := r }).blocks
      ∧ ((withLane 3 { openLane with reserve := r }).lanes.get 3).state = .opened
      ∧ 9 ∉ (withLane 3 { openLane with reserve := r }).blocks
      ∧ 8 ≤ ((withLane 3 { openLane with reserve := r }).lanes.get 3).reserve.length := by decide +kernel
/-- An OPEN lane with a block and 7 in reserve; an OPENING lane; a starved DRAINING lane. -/
theorem witness_GrantAccepted :
    let r : List BlockAddr := [7, 6, 5, 4, 3, 2, 1]
    let a := { openLane with reserve := r }
    9 ∉ (withLane 3 a).blocks ∧ a.reserve.length < 8 ∧ a.current ≠ none ∧ a.state = .opened
      ∧ 9 ∉ (withLane 3 { openLane with state := .opening, current := none }).blocks
      ∧ { openLane with state := .draining, current := none }.current = none := by decide +kernel
/-- Every state of the hold, a PROGRAM being sent, a HOLD-ACK waiting and none. -/
theorem witness_HoldHandshake :
    { State.reset with bLink := ⟨some (.program 1 1 1 1 16 []), [], 1⟩ }.bLink.sending
        = some (.program 1 1 1 1 16 [])
      ∧ State.reset.hold = .free ∧ State.reset.bLink.sending = none
      ∧ BRecord.holdAck ∈ { State.reset with hold := .held, bLink := ⟨none, [.holdAck], 1⟩ }.outB
      ∧ BRecord.holdAck ∉ { State.reset with hold := .held }.outB
      ∧ { State.reset with hold := .stopping }.hold ≠ .free := by
  refine ⟨rfl, rfl, rfl, ?_, ?_, by decide⟩ <;> decide +kernel
/-- Well-formed arrivals, and the queues at 255 and 256, 63 and 64. -/
theorem witness_Arrivals :
    let q : FrontRec := .admin ⟨0, .conditionRead⟩
    let x : RelocateRec := ⟨70, 30, [(1, 2)]⟩
    parseRecord .front (1 :: [0, 0, 32, 0x84, 3, 0, 0, 0, 0, 0, 0, 0, 0, 0, 0]) = some (.write ⟨0, 0, 900, 32, 0, 0⟩)
      ∧ parseRecord .front (2 :: [4, 12, 0, 0]) = some (.admin ⟨12, .conditionRead⟩)
      ∧ parseRecord .back (0x43 :: [70, 0, 30, 0, 1, 1, 0, 0, 0, 0, 0, 2, 0, 0, 0]) = some (.relocate x)
      ∧ (List.replicate 255 q).length < 256 ∧ 256 ≤ (List.replicate 256 q).length
      ∧ (List.replicate 63 x).length < 64 ∧ 64 ≤ (List.replicate 64 x).length := by decide +kernel
/-- Malformed bytes behind each kind code: a length of 0 and of 33, a code 8, a count of 0, an unknown kind. -/
theorem witness_MalformedRecords :
    parseRecord .front (1 :: [0, 0, 0, 0, 0, 0, 0, 0, 0, 0, 0, 0, 0, 0, 0]) = none
      ∧ parseRecord .front (1 :: [0, 0, 33, 0, 0, 0, 0, 0, 0, 0, 0, 0, 0, 0, 0]) = none
      ∧ parseRecord .front (2 :: [8, 0, 0, 0]) = none ∧ parseRecord .back (0x43 :: [0, 0, 0, 0, 0]) = none
      ∧ parseRecord .back [0x46] = none := by decide
/-- The three requests, source sets 7FFh and 800h, and the capture list at 1 and at 2. -/
theorem witness_ConditionsAndCaptures :
    (∀ r, (State.asked State.reset r).FrontIsNext (.admin ⟨9, r⟩) [])
      ∧ (0x7FF : BitVec 16).toNat < 2048 ∧ 2048 ≤ (0x800 : BitVec 16).toNat
      ∧ [(⟨.programFail, 0, 0, 0, 1, none, 0⟩ : Capture)].length < 2
      ∧ 2 ≤ (List.replicate 2 (⟨.programFail, 0, 0, 0, 1, none, 0⟩ : Capture)).length
      ∧ (issued16 1 2 1 9).entries = .sector ⟨.front 7, 5, 30, 100, 200⟩ :: (issued16 1 2 1 9).entries.tail :=
  ⟨fun _ => front_next _ _ _ rfl rfl rfl rfl, by decide, by decide, by decide, by decide, by decide⟩
/-- The sources that are live, as a predicate of the state: any state has one. -/
theorem witness_AttnAndLatches (s : State) : ∃ live : Source → Prop, ∀ x, live x ↔
    (x = .laneFault ∧ ∃ l, (s.lanes.get l).state = .fault)
      ∨ (x = .reserveEmpty ∧ ∃ l, (s.lanes.get l).state = .opening
          ∨ (((s.lanes.get l).state = .opened ∨ (s.lanes.get l).state = .draining)
              ∧ (s.lanes.get l).current = none ∧ (s.lanes.get l).reserve = []))
      ∨ (x = .powerFlush ∧ s.mode = .flushing) := ⟨_, fun _ => Iff.rfl⟩
/-- A WRITE of 32 sectors, a RELOCATE of 8, a list of 27 fields are well formed. -/
theorem witness_RecordReadBack :
    InRecord.wellFormed (.write ⟨255, 3, 4095, 32, 0xFFFFFFFFFFFF, 0xFFFFFFFF⟩) = true
      ∧ InRecord.wellFormed (.relocate ⟨511, 1023, List.replicate 8 (1, 2)⟩) = true
      ∧ InRecord.wellFormed (.admin ⟨0xFFFF, .tableWrite 8 0xFFFF (List.replicate 27 (1, 2))⟩) = true
      ∧ 8 * (replyItems (.tag TagRecord.reset)).length < 65536 := by
  decide
theorem witness_BytesReadWhole : parseRecord .back [0x42, 63, 1, 2, 3, 4] = some (.grant 63 0x04030201) := by
  decide
/-- A step of the state after reset, which meets every law (the statement ResetIsLawful), and a step that works
on a lane. -/
theorem witness_Kept :
    step State.reset = .next (stepped State.reset)
      ∧ step { state86 with pending := [.resultFail 40 0x60 203] }
        = .next (stepped { state86 with pending := [.resultFail 40 0x60 203] }) := ⟨rfl, rfl⟩

end Sys2Proof.Tests
end

section
/-! SUPPORT. The bounds of queues, captures, FHOLD and counts: what each effect does to them. -/

namespace Sys2Proof.Proofs
open Sys2Proof Sys2Proof.Machine

/-! ## The backoffs counter of a lane -/

@[simp] theorem emptied_backoffs (ln : Lane) : ln.emptied.backoffs = ln.backoffs := by
  unfold Lane.emptied; split <;> simp

@[simp] theorem checked_backoffs (ln : Lane) : ln.checked.backoffs = ln.backoffs := by
  unfold Lane.checked; split <;> simp [Lane.drained]

@[simp] theorem faulted_backoffs (ln : Lane) (n : Nat) : (ln.faulted n).backoffs = ln.backoffs := by
  simp [Lane.faulted]

@[simp] theorem sealOrFlag_backoffs (ln : Lane) (U : Nat) : (ln.sealOrFlag U).backoffs = ln.backoffs := by
  obtain ⟨h, _⟩ | ⟨_, _, h⟩ | ⟨_, _, _, h⟩ := sealOrFlag_cases ln U <;> simp [h]

@[simp] theorem sealWaiting_backoffs (ln : Lane) (U : Nat) : (ln.sealWaiting U).backoffs = ln.backoffs := by
  obtain ⟨_, _, _, h⟩ | ⟨_, h⟩ := sealWaiting_cases ln U <;> simp [h]

/-- A lane's move keeps the backoffs counter, counts one refusal up to the limit, or is a reset (R106). -/
theorem laneMove_backoffs {M : Prop} {st : Settings} {a b : Lane} (h : LaneMove M st a b) :
    b.backoffs = a.backoffs ∨ b.backoffs = min (a.backoffs + 1) Config.backoffsMax ∨ b.backoffs = 0 := by
  cases h
  case backoff => exact .inr (.inl rfl)
  case reset => exact .inr (.inr rfl)
  case issue u ln' c hi hp hc =>
    obtain ⟨q, f, rfl⟩ := popReady_changes hp
    exact .inl (by simp [Lane.sent])
  case timeout => exact .inl (by split <;> (try split) <;> simp)
  case settled => exact .inl (by split <;> simp)
  all_goals exact .inl (by simp [Lane.flush, Lane.requeue, Lane.cleared])

/-- Every lane's backoffs counter stays at or below its limit (R106). -/
theorem laneMove_backoffs_le {M : Prop} {st : Settings} {a b : Lane} (h : LaneMove M st a b)
    (ha : a.backoffs ≤ 4294967295) : b.backoffs ≤ 4294967295 := by
  have hb := laneMove_backoffs h
  simp only [Config.backoffsMax] at hb
  omega

/-- The lanes' part of the law of the counts. -/
def BackoffsLaw (s : State) : Prop := ∀ l, (s.lanes.get l).backoffs ≤ 4294967295

theorem backoffs_effect {s t : State} (h : Effect s t) (hs : BackoffsLaw s) : BackoffsLaw t :=
  effect_lane_keeps (P := fun ln => ln.backoffs ≤ 4294967295) h (fun _ _ hm => laneMove_backoffs_le hm) hs

theorem backoffs_beginFlush {s : State} (hs : BackoffsLaw s) : BackoffsLaw (beginFlush s) := by
  intro l
  have hm := moves_flush (M := True) (s := s) l
  generalize (beginFlush s).lanes.get l = x at hm ⊢
  induction hm with
  | refl => exact hs l
  | tail _ h ih => exact laneMove_backoffs_le h ih

/-! ## The bounds that no lane takes part in -/

/-- The bounds of the queues, the captures, FHOLD and the counts that stand outside the lanes. -/
structure SharedBounds (s : State) : Prop where
  front    : s.frontQueue.length ≤ 256
  reloc    : s.relocQueue.length ≤ 64
  captures : s.captures.length ≤ 2
  fhold    : s.FholdLaw
  run      : s.classifierRun ≤ 8
  share    : s.shareCount ≤ 15
  lost     : s.sweep.lost ≤ 65535
  resets   : s.softResets ≤ 65535

/-- The three laws of the bounds are the shared bounds and that of the lanes. -/
theorem bounds_iff (s : State) : (s.QueueLaw ∧ s.FholdLaw ∧ s.CountLaw) ↔ SharedBounds s ∧ BackoffsLaw s :=
  ⟨fun ⟨⟨h1, h2, h3⟩, h4, h5, h6, h7, h8, h9⟩ => ⟨⟨h1, h2, h3, h4, h5, h6, h7, h8⟩, h9⟩,
    fun ⟨⟨h1, h2, h3, h4, h5, h6, h7, h8⟩, h9⟩ => ⟨⟨h1, h2, h3⟩, h4, h5, h6, h7, h8, h9⟩⟩

/-- FHOLD as it follows a change of the queue meets its law, whatever it was before (R164). -/
theorem fholdLaw_after {s : State} {b : Bool} (h : s.fhold = fholdAfter b s.frontQueue.length) : s.FholdLaw := by
  unfold State.FholdLaw
  rw [h]
  generalize s.frontQueue.length = n
  cases b
  · by_cases hn : 256 - n ≤ 16 <;> simp [fholdAfter, hn] <;> omega
  · by_cases hn : 256 - n < 32
    · simp [fholdAfter, hn]
    · simp [fholdAfter, hn]; omega

/-- A change that leaves these fields alone leaves their bounds. -/
theorem SharedBounds.congr {s t : State} (hs : SharedBounds s)
    (h : t.frontQueue = s.frontQueue ∧ t.relocQueue = s.relocQueue ∧ t.captures = s.captures
      ∧ t.fhold = s.fhold ∧ t.classifierRun = s.classifierRun ∧ t.shareCount = s.shareCount
      ∧ t.sweep = s.sweep ∧ t.softResets = s.softResets) : SharedBounds t := by
  obtain ⟨hf, hr, hc, hh, hn, hsh, hw, hz⟩ := h
  exact ⟨hf ▸ hs.front, hr ▸ hs.reloc, hc ▸ hs.captures,
    by unfold State.FholdLaw; rw [hh, hf]; exact hs.fhold,
    hn ▸ hs.run, hsh ▸ hs.share, hw ▸ hs.lost, hz ▸ hs.resets⟩

/-- Taking a front record keeps the bounds (R50, R164). -/
theorem SharedBounds.takeFront {s : State} (hs : SharedBounds s) : SharedBounds s.takeFront where
  front := by have := hs.front; simp; omega
  reloc := hs.reloc
  captures := hs.captures
  fhold := fholdLaw_after rfl
  run := hs.run
  share := Nat.min_le_right _ _
  lost := hs.lost
  resets := hs.resets

/-- Taking a relocation record keeps the bounds (R50). -/
theorem SharedBounds.takeReloc {s : State} (hs : SharedBounds s) : SharedBounds s.takeReloc :=
  { hs with reloc := by have := hs.reloc; simp; omega, share := Nat.zero_le _ }

/-- An access that the port serves keeps the classifier run at 8 or below (R10). -/
theorem SharedBounds.countAccess {s : State} (hs : SharedBounds s) (hp : s.portServesClassifier = true) :
    SharedBounds s.countAccess :=
  { hs with
    run := by
      have hr := hs.run
      simp only [State.countAccess_classifierRun]
      split
      · next hv => simp [State.portServesClassifier, hv, Config.classifierRunMax] at hp; omega
      · exact hr }

/-- A sample tick keeps the lost ticks at their limit or below (R20). -/
theorem SharedBounds.sweepTick {s : State} (hs : SharedBounds s) : SharedBounds (sweepTick s) := by
  unfold Machine.sweepTick
  split
  · exact { hs with }
  · split
    · exact { hs with lost := Nat.min_le_right _ _ }
    · exact { hs with }

/-- A capture joins the list only while fewer than two are held (R159). -/
theorem SharedBounds.takeCapture {s : State} (hs : SharedBounds s) (k : CaptureKind) (l : LaneId) (u : Issued) :
    SharedBounds (Machine.takeCapture k l u s) :=
  { hs.congr (t := { Machine.takeCapture k l u s with captures := s.captures }) (by simp) with
    captures := takeCapture_length s k l u hs.captures }

/-- The end of the sweep or its next position leaves the lost ticks alone. -/
@[simp] theorem afterVisit_lost (w : Sweep) : w.afterVisit.lost = w.lost := by
  unfold Sweep.afterVisit; split <;> rfl

/-- Every effect keeps the shared bounds: the queues take a record only while they have a free slot, and the
counts saturate. -/
theorem SharedBounds.effect {s t : State} (h : Effect s t) (hs : SharedBounds s) : SharedBounds t := by
  cases h
  case sampleTick => exact SharedBounds.sweepTick { hs with }
  case visit h => exact { hs with run := Nat.zero_le _, lost := by simpa using hs.lost }
  case timeout l n u rest h =>
    have hc := SharedBounds.takeCapture (s := s.setLane l { s.lanes.get l with outstanding := rest })
      { hs with } .resultTimeout l u
    exact hc.congr (by simp)
  case frontArrival r h hw =>
    exact { hs with front := by simp; omega, fhold := fholdLaw_after (b := s.fhold) (by simp) }
  case relocArrival x h hx => exact { hs with reloc := by simp; omega }
  case writeClassified w h hm hp =>
    exact (SharedBounds.countAccess (s := { s with inHand := none }) { hs with } hp).congr
      (by simp)
  case relocClassified x h hm hp =>
    exact (SharedBounds.countAccess (s := { s with inHand := none }) { hs with } hp).congr
      (by simp)
  case streamRead a st d h hp => exact { hs.takeFront.countAccess hp with }
  case streamReadLate a st d h hp =>
    exact { SharedBounds.countAccess (s := { s with inHand := none }) { hs with } hp with }
  case streamWrite a i f h hp => exact (hs.takeFront.countAccess hp).congr (by simp)
  case streamWriteLate a i f h hp =>
    exact (SharedBounds.countAccess (s := { s with inHand := none }) { hs with } hp).congr (by simp)
  case captureTake a d h =>
    exact { hs.takeFront with captures := by have := hs.captures; simp; omega }
  case softReset a h =>
    exact { hs.takeFront with
      reloc := by simp, captures := by simp, run := by simp, share := by simp,
      fhold := by simpa [State.FholdLaw] using hs.takeFront.fhold
      front := by simpa using hs.takeFront.front
      lost := by simp [Sweep.reset]
      resets := by simp }
  case resultFail l u rest b i hl h =>
    have hc := SharedBounds.takeCapture
      (s := (s.setLane l { s.lanes.get l with outstanding := rest }).raise .programFail) { hs with } .programFail l u
    exact hc.congr (by simp)
  case writePower | writeTag | writeInHand | answered | streamWaits | groupWrite | settingsWrite | drain | stop
    | clear | conditionClear => exact hs.takeFront.congr (by simp)
  case relocPower | relocTag | relocInHand => exact hs.takeReloc.congr (by simp)
  all_goals exact hs.congr (by simp)

/-! ## Every step keeps the bounds -/

/-- A hardware reset leaves every queue empty and every count at 0 but that of the soft resets (R147). -/
theorem SharedBounds.held {s : State} {k : ResetKind} {n : Nat} (hn : n ≤ 65535) :
    SharedBounds (heldState s k n) where
  front := Nat.zero_le _
  reloc := Nat.zero_le _
  captures := Nat.zero_le _
  fhold := by simp [State.FholdLaw, heldState, State.reset]
  run := Nat.zero_le _
  share := Nat.zero_le _
  lost := Nat.zero_le _
  resets := hn

/-- The bounds after a command. -/
theorem bounds_after {s t : State} (h : After s t) (hs : SharedBounds s ∧ BackoffsLaw s) :
    SharedBounds t ∧ BackoffsLaw t := by
  refine after_keeps (I := fun s => SharedBounds s ∧ BackoffsLaw s) ?latch ?held ?input ?flush ?effect s t h hs
  case latch => exact fun s ⟨hs, hb⟩ => ⟨hs.congr (by simp), hb⟩
  case held =>
    intro s k n ⟨hs, _⟩ hn
    have hr := hs.resets
    exact ⟨.held (by omega), fun l => by simp [heldState, State.reset, Lane.reset]⟩
  case input => exact fun s r w p ⟨hs, hb⟩ => ⟨{ hs with }, hb⟩
  case flush => exact fun s ⟨hs, hb⟩ => ⟨hs.congr (by simp), backoffs_beginFlush hb⟩
  case effect => exact fun s t h ⟨hs, hb⟩ => ⟨hs.effect h, backoffs_effect h hb⟩

/-- Settles O51: the effects keep the shared bounds and the lanes' moves keep the backoffs counters. -/
theorem boundsKept : Obligations.BoundsKept := by
  intro s t hq hf hc h
  rw [bounds_iff]
  refine step_keeps (I := fun s => SharedBounds s ∧ BackoffsLaw s) ?queue ?draw (fun _ _ => bounds_after) ?tick
    ((bounds_iff s).mp ⟨hq, hf, hc⟩) h
  case queue => exact fun s q ⟨hs, hb⟩ => ⟨{ hs with }, hb⟩
  case draw => exact fun s n ⟨hs, hb⟩ => ⟨{ hs with }, hb⟩
  case tick => exact fun s ⟨hs, hb⟩ => ⟨{ hs with }, fun l => by simpa [msTick, Lane.tick] using hb l⟩

end Sys2Proof.Proofs
end

section
/-! SUPPORT. The list of a TABLE-WRITE: when it repeats or selects a field, when every pair of it is stored,
and what a record holds once it has been (R13, R39, R171). -/

namespace Sys2Proof.Proofs
open Sys2Proof Sys2Proof.Machine

variable {σ β : Type} {store : σ → Nat → BitVec 64 → Option σ}

/-- A list repeats no field exactly when its field numbers differ. -/
theorem repeats_eq_false {l : List (Byte × BitVec 64)} : repeats l = false ↔ (l.map Prod.fst).Nodup := by
  induction l with
  | nil => simp [repeats]
  | cons p l ih =>
    obtain ⟨f, v⟩ := p
    simp only [repeats, Bool.or_eq_false_iff, ih, List.map_cons, List.nodup_cons, List.any_eq_false, List.mem_map]
    grind

theorem repeats_eq_true {l : List (Byte × BitVec 64)} : repeats l = true ↔ ¬ (l.map Prod.fst).Nodup := by
  rw [← repeats_eq_false, Bool.not_eq_false]

theorem selects_iff {l : List (Byte × BitVec 64)} {n : Nat} : selects l n = true ↔ ∃ p ∈ l, p.1.toNat = n := by
  simp [selects]

theorem selects_eq_false {l : List (Byte × BitVec 64)} {n : Nat} :
    selects l n = false ↔ ∀ p ∈ l, p.1.toNat ≠ n := by
  simp [selects]

/-- The pairs of a list are stored one after the other. -/
theorem storeAll_cons {x z : σ} {p : Byte × BitVec 64} {l : List (Byte × BitVec 64)} :
    storeAll store x (p :: l) = some z ↔ ∃ y, store x p.1.toNat p.2 = some y ∧ storeAll store y l = some z := by
  obtain ⟨f, v⟩ := p
  simp only [storeAll]
  cases store x f.toNat v <;> simp

/-- What storing each pair keeps, storing the list keeps. -/
theorem storeAll_keeps {P : σ → Prop} {l : List (Byte × BitVec 64)}
    (keep : ∀ p ∈ l, ∀ x y, store x p.1.toNat p.2 = some y → P x → P y) {x z : σ}
    (h : storeAll store x l = some z) (hx : P x) : P z := by
  induction l generalizing x with
  | nil => cases h; exact hx
  | cons p l ih =>
    obtain ⟨y, hy, hz⟩ := storeAll_cons.mp h
    exact ih (fun q hq => keep q (.tail _ hq)) hz (keep p (.head _) x y hy hx)

/-- Where a pair is stored exactly when its value is valid, a list is stored exactly when all its values are. -/
theorem storeAll_isSome {V : Nat → BitVec 64 → Prop} (hV : ∀ x f v, (store x f v).isSome ↔ V f v)
    (l : List (Byte × BitVec 64)) (x : σ) : (storeAll store x l).isSome ↔ ∀ p ∈ l, V p.1.toNat p.2 := by
  induction l generalizing x with
  | nil => simp [storeAll]
  | cons p l ih =>
    obtain ⟨f, v⟩ := p
    rw [List.forall_mem_cons, ← hV x]
    unfold storeAll
    cases store x f.toNat v <;> simp [ih]

/-- Where storing a pair writes what is seen of its own field and nothing else that is seen, the list writes
each field it names and leaves the others. -/
theorem storeAll_seen {see : σ → Nat → β} {written : Nat → BitVec 64 → β}
    (hw : ∀ x f v y, store x f v = some y → ∀ n, see y n = if n = f then written f v else see x n)
    {l : List (Byte × BitVec 64)} (hl : (l.map Prod.fst).Nodup) {x z : σ} (h : storeAll store x l = some z) :
    (∀ p ∈ l, see z p.1.toNat = written p.1.toNat p.2)
      ∧ ∀ n, (∀ p ∈ l, p.1.toNat ≠ n) → see z n = see x n := by
  induction l generalizing x with
  | nil => cases h; simp
  | cons p l ih =>
    obtain ⟨y, hy, hz⟩ := storeAll_cons.mp h
    rw [List.map_cons, List.nodup_cons] at hl
    obtain ⟨hp, hl⟩ := hl
    obtain ⟨named, other⟩ := ih hl hz
    have hne : ∀ q ∈ l, q.1.toNat ≠ p.1.toNat := fun q hq he =>
      hp (List.mem_map.mpr ⟨q, hq, BitVec.eq_of_toNat_eq he⟩)
    constructor
    · rw [List.forall_mem_cons]
      exact ⟨by rw [other _ hne, hw _ _ _ _ hy, if_pos rfl], named⟩
    · intro n hn
      rw [List.forall_mem_cons] at hn
      rw [other n hn.2, hw _ _ _ _ hy, if_neg (Ne.symm hn.1)]

/-! ## The values of a field -/

theorem boolValue_some {v : BitVec 64} {b : Bool} : boolValue v = some b ↔ v.toNat = b.toNat := by
  unfold boolValue
  cases b <;> split <;> (try split) <;> simp_all

theorem rangeValue_some {lo hi n : Nat} {v : BitVec 64} :
    rangeValue lo hi v = some n ↔ lo ≤ v.toNat ∧ v.toNat ≤ hi ∧ v.toNat = n := by
  unfold rangeValue
  split <;> grind

theorem fieldBelow_some {n v : Nat} {i : Fin n} : fieldBelow n v = some i ↔ v = i.val := by
  unfold fieldBelow
  split <;> grind

theorem fieldBelow_none {n v : Nat} : fieldBelow n v = none ↔ n ≤ v := by
  simp [fieldBelow]

theorem boolValue_isSome {v : BitVec 64} : (boolValue v).isSome ↔ v.toNat ≤ 1 := by
  unfold boolValue
  split <;> (try split) <;> simp <;> omega

theorem rangeValue_isSome {lo hi : Nat} {v : BitVec 64} :
    (rangeValue lo hi v).isSome ↔ lo ≤ v.toNat ∧ v.toNat ≤ hi := by
  unfold rangeValue
  split <;> simp_all

theorem fieldBelow_isSome {n v : Nat} : (fieldBelow n v).isSome ↔ v < n := by
  unfold fieldBelow
  split <;> simp_all

theorem optValue_isSome {n : Nat} {v : BitVec 64} :
    (optValue n v).isSome ↔ v = BitVec.allOnes 64 ∨ v.toNat < n := by
  unfold optValue absentValue
  split <;> simp_all [fieldBelow_isSome]

theorem setValue_isSome {v : BitVec 64} : (setValue v).isSome ↔ v.toNat < 2048 := by
  unfold setValue
  split <;> simp_all

/-- A pair is stored in a stream descriptor exactly when its value is in the field's range (R13). -/
theorem streamStore_isSome (d : Stream) (f : Nat) (v : BitVec 64) : (d.store f v).isSome ↔ StreamValue f v := by
  unfold Stream.store StreamValue
  split <;> simp [boolValue_isSome, rangeValue_isSome, fieldBelow_isSome, optValue_isSome]

/-- Storing the lane map entry of a class. -/
theorem groupStore_entry (d : Group) (c : HeatClass) (v : BitVec 64) :
    d.store c.val v = (optValue 48 v).map fun e => { d with laneMap := d.laneMap.set c e } := by
  simp [Group.store, fieldBelow]

/-- No field of a group descriptor has a number above 5. -/
theorem groupStore_above (d : Group) {f : Nat} (hf : 6 ≤ f) (v : BitVec 64) : d.store f v = none := by
  have hb : fieldBelow 4 f = none := fieldBelow_none.mpr (by omega)
  simp [Group.store, hb, show f ≠ 4 by omega, show f ≠ 5 by omega]

/-- The fields of a group descriptor: the four lane map entries, the fallback order and the seal age. -/
theorem groupField_cases (f : Nat) : (∃ c : HeatClass, f = c.val) ∨ f = 4 ∨ f = 5 ∨ 6 ≤ f := by
  by_cases h : f < 4
  · exact .inl ⟨⟨f, h⟩, rfl⟩
  · omega

/-- A pair is stored in a group descriptor exactly when its value is in the field's range (R39). -/
theorem groupStore_isSome (d : Group) (f : Nat) (v : BitVec 64) : (d.store f v).isSome ↔ GroupValue f v := by
  obtain ⟨c, rfl⟩ | rfl | rfl | hf := groupField_cases f
  · rw [groupStore_entry, Option.isSome_map, optValue_isSome]
    fin_cases c <;> rfl
  · by_cases h0 : v.toNat = 0
    · simp [Group.store, GroupValue, fieldBelow, h0]
    · by_cases h1 : v.toNat = 1
      · simp [Group.store, GroupValue, fieldBelow, h1]
      · simp [Group.store, GroupValue, fieldBelow, h0, h1]; omega
  · simp [Group.store, GroupValue, fieldBelow, rangeValue_isSome]
  · rw [groupStore_above d hf]
    simp only [GroupValue]
    split <;> simp <;> omega

/-- A pair is stored in the settings exactly when its value is in the setting's range (R171). -/
theorem settingsStore_isSome (d : Settings) (f : Nat) (v : BitVec 64) : (d.store f v).isSome ↔ SettingValue f v := by
  unfold Settings.store SettingValue
  split <;> simp [rangeValue_isSome, setValue_isSome]

end Sys2Proof.Proofs
end

section
/-! SUPPORT. The ranges of the settings and of the streams' heat: what each effect does to them. -/

namespace Sys2Proof.Proofs
open Sys2Proof Sys2Proof.Machine

/-! ## The settings -/

/-- Every setting lies in its range, each threshold by itself (R170, R171 step 3). -/
structure SettingsInRange (d : Settings) : Prop where
  unitSize       : d.unitSize = 16 ∨ d.unitSize = 32 ∨ d.unitSize = 48
  unitsPerBlock  : 16 ≤ d.unitsPerBlock ∧ d.unitsPerBlock ≤ 2048
  laneLimit      : 1 ≤ d.laneLimit ∧ d.laneLimit ≤ 48
  period         : 1 ≤ d.period ∧ d.period ≤ 255
  shift          : 1 ≤ d.shift ∧ d.shift ≤ 8
  t1             : 1 ≤ d.t1 ∧ d.t1 ≤ 16776960
  t2             : 1 ≤ d.t2 ∧ d.t2 ≤ 16776960
  t3             : 1 ≤ d.t3 ∧ d.t3 ≤ 16776960
  hysteresis     : d.hysteresis ≤ 65535
  dwell          : d.dwell ≤ 15
  resultTimeout  : 10 ≤ d.resultTimeout ∧ d.resultTimeout ≤ 2000
  faultResidency : 1 ≤ d.faultResidency ∧ d.faultResidency ≤ 100
  refillMark     : d.refillMark ≤ 7
  share          : 1 ≤ d.share ∧ d.share ≤ 15

/-- Lawful settings are those in range whose thresholds rise. -/
theorem lawful_iff (d : Settings) : d.Lawful ↔ SettingsInRange d ∧ d.t1 < d.t2 ∧ d.t2 < d.t3 := by
  constructor
  · rintro ⟨hu, hb, hl, hp, hs, ⟨h1, h2, h3, h4⟩, hh, hd, hr, hf, hm, hq⟩
    exact ⟨⟨hu, hb, hl, hp, hs, by omega, by omega, by omega, hh, hd, hr, hf, hm, hq⟩, h2, h3⟩
  · rintro ⟨h, h2, h3⟩
    exact ⟨h.unitSize, h.unitsPerBlock, h.laneLimit, h.period, h.shift, ⟨h.t1.1, h2, h3, h.t3.2⟩, h.hysteresis,
      h.dwell, h.resultTimeout, h.faultResidency, h.refillMark, h.share⟩

/-- A setting that is stored lies in its range. -/
theorem SettingsInRange.store {d d' : Settings} {f : Nat} {v : BitVec 64} (hd : SettingsInRange d)
    (h : d.store f v = some d') : SettingsInRange d' := by
  unfold Settings.store at h
  split at h
  case h_17 => cases h
  case h_1 =>
    split at h
    · next hv => cases h; exact { hd with unitSize := hv }
    · cases h
  case h_15 | h_16 => obtain ⟨x, _, rfl⟩ := Option.map_eq_some_iff.mp h; exact { hd with }
  all_goals
    obtain ⟨n, hn, rfl⟩ := Option.map_eq_some_iff.mp h
    obtain ⟨hlo, hhi, rfl⟩ := rangeValue_some.mp hn
  case h_2 => exact { hd with unitsPerBlock := ⟨hlo, hhi⟩ }
  case h_3 => exact { hd with laneLimit := ⟨hlo, hhi⟩ }
  case h_4 => exact { hd with period := ⟨hlo, hhi⟩ }
  case h_5 => exact { hd with shift := ⟨hlo, hhi⟩ }
  case h_6 => exact { hd with t1 := ⟨hlo, hhi⟩ }
  case h_7 => exact { hd with t2 := ⟨hlo, hhi⟩ }
  case h_8 => exact { hd with t3 := ⟨hlo, hhi⟩ }
  case h_9 => exact { hd with hysteresis := hhi }
  case h_10 => exact { hd with dwell := hhi }
  case h_11 => exact { hd with resultTimeout := ⟨hlo, hhi⟩ }
  case h_12 => exact { hd with faultResidency := ⟨hlo, hhi⟩ }
  case h_13 => exact { hd with refillMark := hhi }
  case h_14 => exact { hd with share := ⟨hlo, hhi⟩ }

/-- A setting that is no threshold leaves the thresholds. -/
theorem settingsStore_thresholds {d d' : Settings} {f : Nat} {v : BitVec 64} (hf : f ≠ 5 ∧ f ≠ 6 ∧ f ≠ 7)
    (h : d.store f v = some d') : d'.t1 = d.t1 ∧ d'.t2 = d.t2 ∧ d'.t3 = d.t3 := by
  unfold Settings.store at h
  split at h
  case h_17 => cases h
  case h_1 => split at h <;> cases h; simp
  case h_6 | h_7 | h_8 => omega
  all_goals obtain ⟨_, _, rfl⟩ := Option.map_eq_some_iff.mp h; simp

/-- A list that selects no threshold leaves the thresholds. -/
theorem storeAll_thresholds {l : List (Byte × BitVec 64)} {d d' : Settings} (hl : selectsThreshold l = false)
    (h : storeAll Settings.store d l = some d') : d'.t1 = d.t1 ∧ d'.t2 = d.t2 ∧ d'.t3 = d.t3 := by
  simp only [selectsThreshold, Bool.or_eq_false_iff, selects_eq_false] at hl
  obtain ⟨⟨h5, h6⟩, h7⟩ := hl
  refine storeAll_keeps (P := fun x => x.t1 = d.t1 ∧ x.t2 = d.t2 ∧ x.t3 = d.t3) (fun p hp x y hy hx => ?_) h
    ⟨rfl, rfl, rfl⟩
  obtain ⟨e1, e2, e3⟩ := settingsStore_thresholds ⟨h5 p hp, h6 p hp, h7 p hp⟩ hy
  rw [e1, e2, e3]
  exact hx

/-- The settings that a SETTINGS write leaves are lawful: the values stored are in range, and a list that
selects a threshold is refused unless the three rise (R34, R171). -/
theorem settingsWrite_lawful {s : State} (hs : s.settings.Lawful) (l : List (Byte × BitVec 64)) :
    (settingsWrite s l).2.Lawful := by
  unfold settingsWrite
  dsimp only
  split
  · exact hs
  · split
    · exact hs
    · split
      · exact hs
      · next d' hd =>
        split
        · exact hs
        · next ht =>
          have hnew : d'.Lawful := by
            obtain ⟨hr, h12, h23⟩ := (lawful_iff _).mp hs
            have hr' : SettingsInRange d' := storeAll_keeps (fun _ _ _ _ hy hx => hx.store hy) hd hr
            cases hsel : selectsThreshold l with
            | false =>
              obtain ⟨e1, e2, e3⟩ := storeAll_thresholds hsel hd
              exact (lawful_iff _).mpr ⟨hr', by omega, by omega⟩
            | true => exact (lawful_iff _).mpr ⟨hr', by simpa [hsel] using ht⟩
          split
          · exact hs
          · split
            · exact hs
            · exact hnew

/-- An effect leaves lawful settings lawful. -/
theorem lawful_effect {s t : State} (h : Effect s t) (hs : s.settings.Lawful) : t.settings.Lawful := by
  cases h
  case settingsWrite a l h => simpa using settingsWrite_lawful (s := s.takeFront) hs l
  all_goals simpa using hs

/-! ## The heat of a stream -/

/-- The rate, the interval count and the dwell of a stream lie in their ranges (R7, R14, R27). -/
def StreamInRange (d : Stream) : Prop := d.rate ≤ 16776960 ∧ d.count ≤ 65535 ∧ d.dwell ≤ 15

/-- One stream in range replaces another. -/
theorem heatLaw_set {s : State} (hs : s.HeatLaw) {d : Stream} (hd : StreamInRange d) (i : StreamId) :
    ∀ j, StreamInRange ((s.streams.set i d).get j) := by
  intro j
  rw [Table.get_set]
  split
  · exact hd
  · exact hs j

/-- A gap's step is no larger than the gap (R27). -/
theorem gapStep_le (k : Nat) {gap : Nat} (h : 0 < gap) : gapStep k gap ≤ gap := by
  have hk : 0 < 2 ^ k := Nat.two_pow_pos k
  unfold gapStep
  rw [Nat.div_le_iff_le_mul_add_pred hk]
  have hm : gap ≤ 2 ^ k * gap := Nat.le_mul_of_pos_left gap hk
  omega

/-- A rate that moves stays at or below any bound of itself and its target (R27). -/
theorem moveRate_le {k r t m : Nat} (hr : r ≤ m) (ht : t ≤ m) : moveRate k r t ≤ m := by
  unfold moveRate
  split
  · next h => have := gapStep_le k (gap := t - r) (by omega); omega
  · split <;> omega

/-- A visit keeps a stream in range: the target of the rate is the count times 256 (R25 to R29). -/
theorem StreamInRange.visit {d : Stream} (hd : StreamInRange d) {st : Settings} (hst : st.dwell ≤ 15) :
    StreamInRange (d.visit st) := by
  obtain ⟨hr, hc, hw⟩ := hd
  have hm : moveRate st.shift d.rate (d.count * 256) ≤ 16776960 := moveRate_le hr (by omega)
  unfold Stream.visit
  split
  · dsimp only
    split
    · exact ⟨hm, Nat.zero_le _, by dsimp only; omega⟩
    · unfold Stream.evaluate
      split
      · exact ⟨hm, Nat.zero_le _, hst⟩
      · split
        · exact ⟨hm, Nat.zero_le _, hst⟩
        · exact ⟨hm, Nat.zero_le _, hw⟩
  · exact ⟨hr, Nat.zero_le _, hw⟩

/-- A field that is stored keeps a stream in range: the rate is clamped, the count and the dwell are checked
(R13, R14). -/
theorem StreamInRange.store {d d' : Stream} {f : Nat} {v : BitVec 64} (hd : StreamInRange d)
    (h : d.store f v = some d') : StreamInRange d' := by
  obtain ⟨hr, hc, hw⟩ := hd
  unfold Stream.store at h
  split at h
  case h_8 => cases h; exact ⟨Nat.min_le_right _ _, hc, hw⟩
  case h_10 => cases h
  all_goals obtain ⟨n, hn, rfl⟩ := Option.map_eq_some_iff.mp h
  case h_7 => obtain ⟨_, hhi, rfl⟩ := rangeValue_some.mp hn; exact ⟨hr, hc, hhi⟩
  case h_9 => obtain ⟨_, hhi, rfl⟩ := rangeValue_some.mp hn; exact ⟨hr, hhi, hw⟩
  all_goals exact ⟨hr, hc, hw⟩

theorem StreamInRange.afterWrite {d : Stream} (hd : StreamInRange d) {dwell : Nat} (h : dwell ≤ 15)
    (l : List (Byte × BitVec 64)) : StreamInRange (d.afterWrite dwell l) := by
  obtain ⟨hr, hc, _⟩ := id hd
  unfold Stream.afterWrite
  split
  · exact ⟨hr, hc, h⟩
  · exact hd

/-- A STREAM write keeps every stream in range, stored or refused (R13, R14). -/
theorem heat_storeStream {s : State} (hs : s.HeatLaw) (hd : s.settings.dwell ≤ 15) (a : Admin) (i : StreamId)
    (l : List (Byte × BitVec 64)) : (storeStream a i l s).HeatLaw := by
  unfold storeStream
  split
  · exact hs
  · split
    · exact hs
    · split
      · next d' h =>
        have hd' : StreamInRange d' := storeAll_keeps (fun _ _ _ _ hy hx => hx.store hy) h (hs i)
        exact heatLaw_set hs (hd'.afterWrite hd l) i
      · exact hs

/-- A WRITE keeps every stream in range: the interval count saturates (R7). -/
theorem heat_classifyWrite {s : State} (hs : s.HeatLaw) (w : WriteRec) : (classifyWrite w s).HeatLaw := by
  unfold classifyWrite
  dsimp only
  split
  · split
    · exact hs
    · split
      · obtain ⟨hr, _, hw⟩ := hs w.stream
        exact heatLaw_set hs (d := (s.streams.get w.stream).countWrite w.length) ⟨hr, Nat.min_le_right _ _, hw⟩ _
      · exact hs
  · exact hs

/-- Fields outside the streams do not matter to their heat. -/
theorem heatLaw_congr {s t : State} (hs : s.HeatLaw) (h : t.streams = s.streams) : t.HeatLaw := by
  unfold State.HeatLaw
  rw [h]
  exact hs

/-- An effect under lawful settings keeps every stream in range. -/
theorem heat_effect {s t : State} (h : Effect s t) (hst : s.settings.Lawful) (hs : s.HeatLaw) : t.HeatLaw := by
  have hd : s.settings.dwell ≤ 15 := ((lawful_iff _).mp hst).1.dwell
  cases h
  case visit h => exact heatLaw_set hs (StreamInRange.visit (hs _) hd) _
  case writeClassified w h hm hp =>
    exact heatLaw_congr (heat_classifyWrite (s := State.countAccess { s with inHand := none }) hs w) (by simp)
  case streamWrite a i l h hp => exact heat_storeStream (s := s.takeFront.countAccess) hs hd a i l
  case streamWriteLate a i l h hp =>
    exact heat_storeStream (s := State.countAccess { s with inHand := none }) hs hd a i l
  all_goals exact heatLaw_congr hs (by simp)

/-! ## Every step keeps the ranges -/

theorem ranges_after {s t : State} (h : After s t) (hs : s.settings.Lawful ∧ s.HeatLaw) :
    t.settings.Lawful ∧ t.HeatLaw := by
  refine after_keeps (I := fun s => s.settings.Lawful ∧ s.HeatLaw) ?latch ?held ?input ?flush ?effect s t h hs
  case latch => exact fun s hs => hs
  case held =>
    intro s k n _ _
    refine ⟨?_, fun i => by simp [heldState, State.reset, Stream.reset]⟩
    show Settings.reset.Lawful
    simp [Settings.Lawful, Settings.reset]
  case input => exact fun s r w p hs => hs
  case flush => exact fun s ⟨hst, hs⟩ => ⟨by simpa using hst, heatLaw_congr hs (by simp)⟩
  case effect => exact fun s t h ⟨hst, hs⟩ => ⟨lawful_effect h hst, heat_effect h hst hs⟩

/-- Settles O52: only a SETTINGS write changes the settings, only a visit, a WRITE and a STREAM write the
heat of a stream. -/
theorem settingsAndHeatKept : Obligations.SettingsAndHeatKept := by
  intro s t hst hs h
  exact step_keeps (I := fun s => s.settings.Lawful ∧ s.HeatLaw) (fun _ _ hs => hs) (fun _ _ hs => hs)
    (fun _ _ => ranges_after) (fun _ hs => hs) ⟨hst, hs⟩ h

end Sys2Proof.Proofs
end

section
/-! SUPPORT. What the hardware resets leave, and the order in which an empty queue takes the steps that are due
(R147; log entries 2, 13 and 25). -/

namespace Sys2Proof.Proofs
open Sys2Proof Sys2Proof.Machine Sys2Proof.Laws

/-! ## Power-on and line reset -/

/-- Settles O5: both resets leave `heldState`, whose fields are those of the state right after reset. -/
theorem powerOnAndLineReset : Obligations.PowerOnAndLineReset := by
  intro s
  refine ⟨heldState s .powerOn 0, rfl, rfl, rfl, rfl, rfl, rfl, rfl, rfl, ?streams, ?groups, ?frontTags,
    ?relocTags, ?lanes, rfl, rfl, rfl, rfl, rfl, rfl, rfl, rfl, rfl, rfl, rfl, rfl, rfl, rfl, rfl, rfl, rfl⟩
  case streams => exact fun i => Table.get_replicate ..
  case groups =>
    intro g
    rw [show (heldState s .powerOn 0).groups.get g = Group.reset from Table.get_replicate ..]
    exact ⟨fun c => Table.get_replicate .., rfl, rfl⟩
  case frontTags => exact fun i => Table.get_replicate ..
  case relocTags => exact fun i => Table.get_replicate ..
  case lanes => exact fun l => Table.get_replicate ..

/-! ## The step on an empty queue -/

/-- On an empty queue the working part takes the step that is due. -/
theorem step_due {s : State} {c : Instr} (hq : s.pending = []) (hr : s.inReset = false)
    (hd : dueCommand s = some c) : step s = exec c s := by
  simp [step, hq, idleStep, hr, hd]

/-- With nothing due and nothing waiting at the port the step is one millisecond tick. -/
theorem step_tick {s : State} (hq : s.pending = []) (hr : s.inReset = false) (hd : dueCommand s = none)
    (hp : s.portCommand = none) : step s = .next (msTick s) := by
  simp [step, hq, idleStep, hr, hd, hp]

/-- With nothing due the step is what the port serves or a tick, as a free value says. -/
theorem step_port {s : State} {c : Instr} (hq : s.pending = []) (hr : s.inReset = false)
    (hd : dueCommand s = none) (hp : s.portCommand = some c) : step s = portOrTick c s := by
  simp [step, hq, idleStep, hr, hd, hp]

/-- The first lane of which an expiry is due gives the expiry that is taken (log entry 13). -/
theorem findSome_firstDue {s : State} {l : LaneId} {c : Instr} (hl : (s.lanes.get l).FirstDue l c)
    (hq : ∀ m < l, (s.lanes.get m).Quiet) :
    (allLanes.findSome? fun m => (s.lanes.get m).dueCommand m) = some c := by
  have hlen : l.val < allLanes.length := by simp [allLanes]
  have hget : allLanes[l.val] = l := by simp [allLanes]
  rw [List.findSome?_eq_some_iff]
  refine ⟨allLanes.take l.val, l, allLanes.drop (l.val + 1), ?_, dueCommand_first hl, fun m hm => ?_⟩
  · conv_lhs => rw [← List.take_append_drop l.val allLanes, List.drop_eq_getElem_cons hlen, hget]
  · obtain ⟨k, hk, rfl⟩ := List.mem_take_iff_getElem.mp hm
    refine dueCommand_quiet (hq _ ?_)
    simp only [allLanes, List.getElem_finRange, Fin.lt_def, Fin.val_cast]
    omega

/-- No expiry of any lane is due. -/
theorem findSome_quiet {s : State} (hq : ∀ l, (s.lanes.get l).Quiet) :
    (allLanes.findSome? fun m => (s.lanes.get m).dueCommand m) = none :=
  List.findSome?_eq_none_iff.mpr fun l _ => dueCommand_quiet (hq l)

section due
variable {s : State}

theorem dueCommand_warning (h : s.warning = true ∧ s.mode = .run) :
    dueCommand s = some .warningTakenAfterSoftReset := by
  simp [dueCommand, State.warningDue, h.1, h.2]

theorem dueCommand_sample (h : ¬ (s.warning = true ∧ s.mode = .run)) (hd : s.sample.length ≤ s.sample.count) :
    dueCommand s = some .sampleTick := by
  simp [dueCommand, warningDue_false h, State.sampleDue, hd]

variable (h : ¬ (s.warning = true ∧ s.mode = .run)) (hd : s.sample.count < s.sample.length)
include h hd

theorem dueCommand_lane {l : LaneId} {c : Instr} (hl : (s.lanes.get l).FirstDue l c)
    (hq : ∀ m < l, (s.lanes.get m).Quiet) : dueCommand s = some c := by
  simp [dueCommand, warningDue_false h, State.sampleDue, hd, findSome_firstDue hl hq]

theorem dueCommand_classifier (hq : ∀ l, (s.lanes.get l).Quiet) : dueCommand s = s.classifierCommand := by
  simp [dueCommand, warningDue_false h, State.sampleDue, hd, findSome_quiet hq]

end due

/-- A record in hand whose mode has left RUN is gone on with at once (log entry 7). -/
theorem classifierCommand_late {s : State} {x : InHand} (h : s.inHand = some x) (ha : s.accessWaits = false) :
    s.classifierCommand = some x.command := by
  simp [State.classifierCommand, h, ha]

/-- An idle sweep and an empty hand leave the port nothing to serve. -/
theorem portCommand_none {s : State} (h : s.inHand = none) (hw : s.sweep.state = .idle) :
    s.portCommand = none := by
  simp [State.portCommand, State.portServesVisit, State.visitWaits, hw, State.accessWaits, h]

/-- Settles O3, by the order of `dueCommand`: the warning level, the sample tick, the lanes, the classifier;
and behind them what the port serves or a tick. -/
theorem idleTick : Obligations.IdleTick := by
  intro s hp hr
  refine ⟨fun hw => step_due hp hr (dueCommand_warning hw),
    fun hw hd => step_due hp hr (dueCommand_sample hw hd), fun hw hd => ⟨fun l c hl hq =>
      step_due hp hr (dueCommand_lane hw hd hl hq), fun hq => ?_⟩⟩
  have hc : dueCommand s = s.classifierCommand := dueCommand_classifier hw hd hq
  refine ⟨?write, ?admin, ?relocate, ?writeLate, ?relocateLate, ?port, ?tick⟩
  case write => exact fun w rest h => step_due hp hr (hc.trans (classifierCommand_front h))
  case admin =>
    intro a rest c h hrow
    rw [← requestCommand_row hrow]
    exact step_due hp hr (hc.trans (classifierCommand_front h))
  case relocate => exact fun x rest h => step_due hp hr (hc.trans (classifierCommand_reloc h))
  case writeLate =>
    intro w h hm
    exact step_due hp hr (hc.trans (classifierCommand_late h (by simp [State.accessWaits, h, hm])))
  case relocateLate =>
    intro x h hm
    exact step_due hp hr (hc.trans (classifierCommand_late h (by simp [State.accessWaits, h, hm])))
  case port =>
    rintro c d hs hempty rfl
    obtain ⟨hserved, hwaits⟩ := portCommand_serves hs
    have hnone : dueCommand s = none := by
      rw [hc]
      by_cases hi : s.inHand = none
      · exact classifierCommand_idle hi (hempty hi).1 (hempty hi).2
      · exact classifierCommand_waits hi (hwaits hi)
    rw [step_port hp hr hnone hserved, portOrTick]
    split
    · rfl
    · exact ⟨_, rfl, msTick_ticks _⟩
  case tick =>
    intro hi hf hrq hw
    exact ⟨_, step_tick hp hr (hc.trans (classifierCommand_idle hi hf hrq)) (portCommand_none hi hw),
      msTick_ticks s⟩

end Sys2Proof.Proofs
end

section
/-! SUPPORT. The stream-table port: which access is served, and what a STREAM request answers (R9, R10, R12,
R13). -/

namespace Sys2Proof.Proofs
open Sys2Proof Sys2Proof.Machine Sys2Proof.Laws

/-! ## A STREAM request taken -/

/-- The classifier works on the ADMIN `a`, taken from the head of the front queue or already in hand, and
`base` is the state without it (R49; log entry 5). -/
def StreamTaken (s : State) (a : Admin) (base : State) : Prop :=
  (∃ rest, s.FrontIsNext (.admin a) rest ∧ base = s.frontTaken rest)
    ∨ (s.inReset = false ∧ s.inHand = some (.streamAdmin a) ∧ base = { s with inHand := none })

section taken
variable {s base : State} {a : Admin}

theorem StreamTaken.request (h : StreamTaken s a base) : s.streamRequest = some (a, base) := by
  obtain ⟨rest, hn, rfl⟩ | ⟨_, hi, rfl⟩ := h
  · obtain ⟨hf, ht, _, hi⟩ := FrontIsNext_taken hn
    simp [State.streamRequest, hi, hf, ht]
  · simp [State.streamRequest, hi]

theorem StreamTaken.working (h : StreamTaken s a base) : s.inReset = false := by
  obtain ⟨_, hn, _⟩ | ⟨hr, _⟩ := h
  · exact hn.1
  · exact hr

/-- Taking a request reads and writes neither the streams, the settings, the lanes nor the port. -/
theorem StreamTaken.frame (h : StreamTaken s a base) :
    base.streams = s.streams ∧ base.settings = s.settings ∧ base.sweep = s.sweep
      ∧ base.classifierRun = s.classifierRun ∧ base.inHand = none := by
  obtain ⟨rest, hn, rfl⟩ | ⟨_, _, rfl⟩ := h
  · exact ⟨rfl, rfl, rfl, rfl, hn.2.1⟩
  · exact ⟨rfl, rfl, rfl, rfl, rfl⟩

theorem StreamTaken.portFree (h : StreamTaken s a base) : base.PortFree ↔ s.PortFree := by
  obtain ⟨_, _, hw, hn, _⟩ := h.frame
  rw [State.PortFree, State.PortFree, hw, hn]

/-- An access that the port serves at once (R9, R10). -/
theorem streamAccess_free (hp : base.PortFree) (serve : State → State) :
    streamAccess s a base serve = some (serve base.accessServed) := by
  rw [← countAccess_eq, streamAccess, if_pos ((portServesClassifier_iff _).mpr hp)]

/-- An access whose request was taken at the visit's turn waits in hand (R9, R10). -/
theorem streamAccess_waits (hp : ¬ base.PortFree) (hi : s.inHand = none) (serve : State → State) :
    streamAccess s a base serve = some { base with inHand := some (.streamAdmin a) } := by
  rw [streamAccess, if_neg (mt (portServesClassifier_iff _).mp hp), hi]
  rfl

/-- An access of a request in hand goes on waiting at the visit's turn (R10). -/
theorem streamAccess_notDue (hp : ¬ base.PortFree) {x : InHand} (hi : s.inHand = some x)
    (serve : State → State) : streamAccess s a base serve = none := by
  rw [streamAccess, if_neg (mt (portServesClassifier_iff _).mp hp), hi]
  rfl

theorem streamOf_eq {index : BitVec 16} {i : StreamId} (h : i.val = index.toNat) : streamOf index = some i :=
  fieldBelow_some.mpr h.symm

theorem streamOf_none {index : BitVec 16} (h : 1024 ≤ index.toNat) : streamOf index = none :=
  fieldBelow_none.mpr h

variable {id index : BitVec 16} {fields : List (Byte × BitVec 64)} {i : StreamId}

/-- A STREAM read with its index in range makes its access of the port. -/
theorem exec_streamRead (h : StreamTaken s ⟨id, .tableRead 1 index⟩ base) (hi : i.val = index.toNat) :
    exec .streamTableRead s = commit s (streamAccess s ⟨id, .tableRead 1 index⟩ base fun t =>
      t.createF (.adminReply id .ok (.stream (t.streams.get i)))) := by
  simp only [exec, execStreamTableRead, h.request, streamOf_eq hi]
  rfl

theorem exec_streamRead_badIndex (h : StreamTaken s ⟨id, .tableRead 1 index⟩ base) (hi : 1024 ≤ index.toNat) :
    exec .streamTableRead s =
      .next (State.latchLevels (base.createF (.adminReply id .badIndex .none))) := by
  simp only [exec, execStreamTableRead, h.request, streamOf_none hi]
  exact commit_some h.working _

/-- A STREAM write with its index in range makes its access of the port. -/
theorem exec_streamWrite (h : StreamTaken s ⟨id, .tableWrite 1 index fields⟩ base) (hi : i.val = index.toNat) :
    exec .streamTableWrite s = commit s (streamAccess s ⟨id, .tableWrite 1 index fields⟩ base
      (storeStream ⟨id, .tableWrite 1 index fields⟩ i fields)) := by
  simp only [exec, execStreamTableWrite, h.request, streamOf_eq hi]
  rfl

theorem exec_streamWrite_badIndex (h : StreamTaken s ⟨id, .tableWrite 1 index fields⟩ base)
    (hi : 1024 ≤ index.toNat) : exec .streamTableWrite s =
      .next (State.latchLevels (base.createF (.adminReply id .badIndex .none))) := by
  simp only [exec, execStreamTableWrite, h.request, streamOf_none hi]
  exact commit_some h.working _

theorem exec_streamRead_served (h : StreamTaken s ⟨id, .tableRead 1 index⟩ base) (hi : i.val = index.toNat)
    (hp : s.PortFree) : exec .streamTableRead s = .next (State.latchLevels (base.accessServed.createF
      (.adminReply id .ok (.stream (s.streams.get i))))) := by
  rw [exec_streamRead h hi, streamAccess_free (h.portFree.mpr hp), commit_some h.working, ← h.frame.1]
  rfl

theorem exec_streamWrite_served (h : StreamTaken s ⟨id, .tableWrite 1 index fields⟩ base)
    (hi : i.val = index.toNat) (hp : s.PortFree) : exec .streamTableWrite s =
      .next (State.latchLevels (storeStream ⟨id, .tableWrite 1 index fields⟩ i fields base.accessServed)) := by
  rw [exec_streamWrite h hi, streamAccess_free (h.portFree.mpr hp), commit_some h.working]

end taken

/-- A STREAM request at the head of the front queue, its index in range, is left in hand at the visit's turn
(R9, R10; log entry 5). -/
theorem exec_streamRequest_waits {s : State} {c : Instr} {id index : BitVec 16} {req : AdminReq}
    {rest : List FrontRec}
    (hc : req = .tableRead 1 index ∧ c = .streamTableRead
      ∨ (∃ fields, req = .tableWrite 1 index fields) ∧ c = .streamTableWrite)
    (hi : index.toNat < 1024) (hp : ¬ s.PortFree) (h : s.FrontIsNext (.admin ⟨id, req⟩) rest) :
    exec c s = .next (State.latchLevels
      { s.frontTaken rest with inHand := some (.streamAdmin ⟨id, req⟩) }) := by
  have ht : StreamTaken s ⟨id, req⟩ (s.frontTaken rest) := .inl ⟨rest, h, rfl⟩
  have hw : ∀ serve, streamAccess s ⟨id, req⟩ (s.frontTaken rest) serve
      = some { s.frontTaken rest with inHand := some (.streamAdmin ⟨id, req⟩) } :=
    streamAccess_waits (mt ht.portFree.mp hp) h.2.1
  obtain ⟨rfl, rfl⟩ | ⟨⟨fields, rfl⟩, rfl⟩ := hc
  · rw [exec_streamRead (i := ⟨index.toNat, hi⟩) ht rfl, hw, commit_some ht.working]
  · rw [exec_streamWrite (i := ⟨index.toNat, hi⟩) ht rfl, hw, commit_some ht.working]

/-- Settles O14: a read that is served answers the descriptor, one at the visit's turn waits, and an index
above 1023 is answered without an access. -/
theorem streamRead : Obligations.StreamRead := by
  intro s id index
  constructor
  · intro rest h
    have ht : StreamTaken s ⟨id, .tableRead 1 index⟩ (s.frontTaken rest) := .inl ⟨rest, h, rfl⟩
    exact ⟨fun i hi hp => exec_streamRead_served ht hi hp,
      fun hi hp => exec_streamRequest_waits (.inl ⟨rfl, rfl⟩) hi hp h,
      fun hi => exec_streamRead_badIndex ht hi⟩
  · intro hr hh i hi hp
    exact exec_streamRead_served (.inr ⟨hr, hh, rfl⟩) hi hp

/-! ## The arbiter -/

/-- The commands whose access of the port waits while the record is in hand. -/
def AccessOf (s : State) (c : Instr) : Prop :=
  s.mode = .run ∧ (∃ w, s.inHand = some (.write w)) ∧ c = .writeClassification
    ∨ s.mode = .run ∧ (∃ x, s.inHand = some (.relocate x)) ∧ c = .relocateClassification
    ∨ (∃ id i, s.inHand = some (.streamAdmin ⟨id, .tableRead 1 i⟩) ∧ i.toNat < 1024) ∧ c = .streamTableRead
    ∨ (∃ id i fields, s.inHand = some (.streamAdmin ⟨id, .tableWrite 1 i fields⟩) ∧ i.toNat < 1024)
        ∧ c = .streamTableWrite

section arbiter
variable {s : State} {c : Instr}

/-- Such a command leaves a record in hand whose access waits. -/
theorem AccessOf.waits (h : AccessOf s c) : s.accessWaits = true := by
  obtain ⟨hm, ⟨w, hi⟩, _⟩ | ⟨hm, ⟨x, hi⟩, _⟩ | ⟨⟨id, i, hi, _⟩, _⟩ | ⟨⟨id, i, f, hi, _⟩, _⟩ := h <;>
    simp [State.accessWaits, *]

/-- While an access is served ahead of it the visit waits: its command is spent (R10; log entry 3). -/
theorem visit_spent (ha : s.accessWaits = true) (hn : s.classifierRun < 8) : exec .visit s = .next s := by
  have hp : s.portServesVisit = false := by simp [State.portServesVisit, ha, hn]
  simp [exec, execVisit, hp, commit]

variable (hr : s.inReset = false) (hs : s.sweep.state = .running)
include hr hs

/-- An access that is served while a visit waits raises the classifier run by 1 (R10). -/
theorem AccessOf.served (h : AccessOf s c) (hn : s.classifierRun < 8) :
    ∃ t, exec c s = .next t ∧ t.classifierRun = s.classifierRun + 1 ∧ t.inHand = none ∧ t.sweep = s.sweep := by
  have hv : s.visitWaits = true := by simp [State.visitWaits, hs]
  have hp : s.portServesClassifier = true := (portServesClassifier_iff s).mpr (.inr hn)
  obtain ⟨hm, ⟨w, hi⟩, rfl⟩ | ⟨hm, ⟨x, hi⟩, rfl⟩ | ⟨⟨id, i, hi, hlt⟩, rfl⟩ | ⟨⟨id, i, f, hi, hlt⟩, rfl⟩ := h
  · refine ⟨_, by simp only [exec, execWriteClassification, hi, hm, hp]; exact commit_some hr _, ?_⟩
    simpa [State.visitWaits] using hs
  · refine ⟨_, by simp only [exec, execRelocateClassification, hi, hm, hp]; exact commit_some hr _, ?_⟩
    simpa [State.visitWaits] using hs
  · refine ⟨_, exec_streamRead_served (i := ⟨i.toNat, hlt⟩) (.inr ⟨hr, hi, rfl⟩) rfl (.inr hn), ?_⟩
    simpa [State.accessServed] using hs
  · refine ⟨_, exec_streamWrite_served (i := ⟨i.toNat, hlt⟩) (.inr ⟨hr, hi, rfl⟩) rfl (.inr hn), ?_⟩
    simpa [State.accessServed] using hs

/-- At the visit's turn the access waits: its command is spent (R10; log entry 3). -/
theorem AccessOf.spent (h : AccessOf s c) (hn : 8 ≤ s.classifierRun) : exec c s = .next s := by
  have hf : ¬ s.PortFree := by simp [State.PortFree, hs]; omega
  have hp : s.portServesClassifier = false := eq_false_of_ne_true (mt (portServesClassifier_iff s).mp hf)
  obtain ⟨hm, ⟨w, hi⟩, rfl⟩ | ⟨hm, ⟨x, hi⟩, rfl⟩ | ⟨⟨id, i, hi, hlt⟩, rfl⟩ | ⟨⟨id, i, f, hi, hlt⟩, rfl⟩ := h
  · simp [exec, execWriteClassification, hi, hm, hp, commit]
  · simp [exec, execRelocateClassification, hi, hm, hp, commit]
  · rw [exec_streamRead (i := ⟨i.toNat, hlt⟩) (.inr ⟨hr, hi, rfl⟩) rfl,
      streamAccess_notDue (base := { s with inHand := none }) hf hi, commit_none]
  · rw [exec_streamWrite (i := ⟨i.toNat, hlt⟩) (.inr ⟨hr, hi, rfl⟩) rfl,
      streamAccess_notDue (base := { s with inHand := none }) hf hi, commit_none]

/-- At its turn the visit is served, and the classifier run becomes 0 (R10). -/
theorem visit_served (hn : 8 ≤ s.classifierRun) :
    ∃ t, exec .visit s = .next t ∧ t.classifierRun = 0 ∧ t.inHand = s.inHand := by
  have hp : s.portServesVisit = true := by simp [State.portServesVisit, State.visitWaits, hs, hn]
  refine ⟨_, by simp only [exec, execVisit, hp]; exact commit_some hr _, ?_⟩
  simp

end arbiter

/-- Settles O13: below 8 the access is served and the visit spent, at 8 the other way round. -/
theorem portArbiter : Obligations.PortArbiter := by
  intro s hr hs
  constructor
  · intro c hc
    have ha : AccessOf s c := hc
    exact ⟨fun hn => ⟨visit_spent ha.waits hn, ha.served hr hs hn⟩,
      fun hn => ⟨ha.spent hr hs hn, visit_served hr hs hn⟩⟩
  · intro c id i req rest hn hc hi h
    exact exec_streamRequest_waits hc hi (by simp [State.PortFree, hs]; omega) h

end Sys2Proof.Proofs
end

section
/-! SUPPORT. The TABLE-WRITEs of STREAM, GROUP and SETTINGS: what is stored, and what a refused one answers
(R13, R14, R39, R40, R171). -/

namespace Sys2Proof.Proofs
open Sys2Proof Sys2Proof.Machine Sys2Proof.Laws

/-! ## A value read back as an item -/

theorem boolValue_item {v : BitVec 64} {b : Bool} (h : boolValue v = some b) : boolItem b = v := by
  have hv := boolValue_some.mp h
  apply BitVec.eq_of_toNat_eq
  rw [hv]
  cases b <;> rfl

@[simp] theorem item_toNat (v : BitVec 64) : item v.toNat = v := BitVec.ofNat_toNat _ _ |>.trans (by simp)

theorem rangeValue_item {lo hi n : Nat} {v : BitVec 64} (h : rangeValue lo hi v = some n) : item n = v := by
  obtain ⟨_, _, rfl⟩ := rangeValue_some.mp h
  simp

theorem fieldBelow_item {n : Nat} {v : BitVec 64} {i : Fin n} (h : fieldBelow n v.toNat = some i) :
    item i.val = v := by
  rw [← fieldBelow_some.mp h]
  simp

theorem optValue_some {n : Nat} {v : BitVec 64} {o : Option (Fin n)} (h : optValue n v = some o) :
    (v = BitVec.allOnes 64 ∧ o = none) ∨ ∃ i, o = some i ∧ v.toNat = i.val := by
  unfold optValue absentValue at h
  split at h
  · cases h; exact .inl ⟨by assumption, rfl⟩
  · obtain ⟨i, hi, rfl⟩ := Option.map_eq_some_iff.mp h
    exact .inr ⟨i, rfl, fieldBelow_some.mp hi⟩

theorem optValue_item {n : Nat} {v : BitVec 64} {o : Option (Fin n)} (h : optValue n v = some o) :
    optItem (o.map Fin.val) = v := by
  obtain ⟨rfl, rfl⟩ | ⟨i, rfl, hi⟩ := optValue_some h
  · rfl
  · simp [optItem, ← hi]

/-! ## What a STREAM write stores -/

/-- The item that a field of a stream descriptor reads back as once a value is stored: the rate clamped, any
other value as written (R13, R14). -/
def streamWritten (f : Nat) (v : BitVec 64) : BitVec 64 :=
  if f = 7 then BitVec.ofNat 64 (min v.toNat 16776960) else v

/-- A field that is stored changes its own item alone. -/
theorem streamStore_items {d d' : Stream} {f : Nat} {v : BitVec 64} (h : d.store f v = some d') :
    f < 9 ∧ streamItems d' = (streamItems d).set f (streamWritten f v) := by
  unfold Stream.store at h
  split at h
  case h_8 => cases h; exact ⟨by omega, rfl⟩
  case h_10 => cases h
  all_goals
    obtain ⟨x, hx, rfl⟩ := Option.map_eq_some_iff.mp h
    refine ⟨by omega, ?_⟩
  case h_1 | h_3 => simp [streamItems, streamWritten, boolValue_item hx]
  case h_2 | h_6 => simp [streamItems, streamWritten, fieldBelow_item hx]
  case h_4 | h_5 => simp [streamItems, streamWritten, optValue_item hx]
  case h_7 | h_9 => simp [streamItems, streamWritten, rangeValue_item hx]

/-- The items of a stream descriptor after one field is stored. -/
theorem streamStore_seen (d : Stream) (f : Nat) (v : BitVec 64) (d' : Stream) (h : d.store f v = some d')
    (n : Nat) : (streamItems d')[n]? = if n = f then some (streamWritten f v) else (streamItems d)[n]? := by
  obtain ⟨hf, he⟩ := streamStore_items h
  rw [he, List.getElem?_set]
  by_cases hn : f = n
  · subst hn
    simp [streamItems, show f < 10 by omega]
  · simp [hn, Ne.symm hn]

/-- A field other than the dwell leaves the dwell. -/
theorem streamStore_dwell {d d' : Stream} {f : Nat} {v : BitVec 64} (hf : f ≠ 6) (h : d.store f v = some d') :
    d'.dwell = d.dwell := by
  unfold Stream.store at h
  split at h
  case h_7 => exact absurd rfl hf
  case h_8 => cases h; rfl
  case h_10 => cases h
  all_goals obtain ⟨_, _, rfl⟩ := Option.map_eq_some_iff.mp h; rfl

/-- The dwell that a class or a pin sets is an item of its own (R14). -/
theorem afterWrite_items (dwell : Nat) (l : List (Byte × BitVec 64)) (d : Stream) {n : Nat}
    (hn : n ≠ 6 ∨ ∃ p ∈ l, p.1.toNat = 6) :
    (streamItems (d.afterWrite dwell l))[n]? = (streamItems d)[n]? := by
  unfold Stream.afterWrite
  split
  · next hc =>
    have h6 : n ≠ 6 := hn.resolve_right fun hp => by simp [selects_iff.mpr hp] at hc
    rw [show streamItems { d with dwell := dwell } = (streamItems d).set 6 (item dwell) from rfl,
      List.getElem?_set_ne (Ne.symm h6)]
  · rfl

/-- A list that selects no dwell sets it when it selects a class or a pin (R14). -/
theorem afterWrite_dwell (dwell : Nat) {l : List (Byte × BitVec 64)} (d : Stream)
    (h : ∀ p ∈ l, p.1.toNat ≠ 6) : (d.afterWrite dwell l).dwell =
      if ∃ p ∈ l, p.1.toNat = 3 ∨ p.1.toNat = 5 then dwell else d.dwell := by
  have hc : ((selects l 3 || selects l 5) && !selects l 6) = true ↔
      ∃ p ∈ l, p.1.toNat = 3 ∨ p.1.toNat = 5 := by
    simp only [selects_eq_false.mpr h, Bool.not_false, Bool.and_true, Bool.or_eq_true, selects_iff]
    grind
  unfold Stream.afterWrite
  simp only [hc]
  split <;> rfl

section storeStream
variable {s : State} {a : Admin} {i : StreamId} {l : List (Byte × BitVec 64)}

/-- A STREAM write whose fields differ and whose values are in range is stored (R13). -/
theorem storeStream_accepted {d : Stream} (hl : (l.map Prod.fst).Nodup) (hv : ∀ p ∈ l, StreamValue p.1.toNat p.2)
    (hd : storeAll Stream.store (s.streams.get i) l = some d) :
    storeStream a i l s = (s.setStream i (d.afterWrite s.settings.dwell l)).reply a .ok := by
  have h9 : selects l writtenField = false :=
    selects_eq_false.mpr fun p hp h9 => by simpa [StreamValue, h9, writtenField] using hv p hp
  simp [storeStream, h9, repeats_eq_false.mpr hl, hd]

/-- A STREAM write that selects the sectors written is answered READ-ONLY (R13 step 2). -/
theorem storeStream_readOnly (h : ∃ p ∈ l, p.1 = 9) : storeStream a i l s = s.reply a .readOnly := by
  obtain ⟨p, hp, h9⟩ := h
  have hs : selects l writtenField = true := selects_iff.mpr ⟨p, hp, by rw [h9]; rfl⟩
  simp [storeStream, hs]

/-- A STREAM write that repeats a field or has a value out of range is answered BAD-VALUE (R13 step 3). -/
theorem storeStream_badValue (h9 : ∀ p ∈ l, p.1 ≠ 9)
    (h : ¬ (l.map Prod.fst).Nodup ∨ ∃ p ∈ l, ¬ StreamValue p.1.toNat p.2) :
    storeStream a i l s = s.reply a .badValue := by
  have hs : selects l writtenField = false :=
    selects_eq_false.mpr fun p hp hn => h9 p hp (BitVec.eq_of_toNat_eq hn)
  by_cases hl : (l.map Prod.fst).Nodup
  · have hnone : storeAll Stream.store (s.streams.get i) l = none := by
      rw [← Option.not_isSome_iff_eq_none, storeAll_isSome streamStore_isSome]
      simpa using h.resolve_left (not_not.mpr hl)
    simp [storeStream, hs, repeats_eq_false.mpr hl, hnone]
  · simp [storeStream, hs, repeats_eq_true.mpr hl]

end storeStream

/-- Settles O15: every pair is stored, each field is seen as written, and the dwell follows R14. -/
theorem streamWriteStores : Obligations.StreamWriteStores := by
  intro s id index fields i base ht hp hi hl hv
  have ht : StreamTaken s ⟨id, .tableWrite 1 index fields⟩ base := ht
  obtain ⟨hstreams, hsettings, _⟩ := ht.frame
  obtain ⟨d, hd⟩ := Option.isSome_iff_exists.mp
    ((storeAll_isSome streamStore_isSome fields (s.streams.get i)).mpr hv)
  obtain ⟨named, other⟩ := storeAll_seen (see := fun d n => (streamItems d)[n]?)
    (written := fun f v => some (streamWritten f v)) streamStore_seen hl hd
  refine ⟨d.afterWrite s.settings.dwell fields, ?stored, ?named, ?other, ?dwell⟩
  case stored =>
    have hd' : storeAll Stream.store (base.accessServed.streams.get i) fields = some d := by
      rw [← hd, ← hstreams]; rfl
    rw [exec_streamWrite_served ht hi hp, storeStream_accepted hl hv hd', ← hsettings, ← hstreams]
    rfl
  case named =>
    intro p hp
    have hn : p.1.toNat ≠ 6 ∨ ∃ q ∈ fields, q.1.toNat = 6 :=
      (em (p.1.toNat = 6)).elim (fun h6 => .inr ⟨p, hp, h6⟩) .inl
    exact (afterWrite_items _ _ _ hn).trans (named p hp)
  case other =>
    intro n hn ho
    rw [afterWrite_items _ _ _ (.inl hn)]
    exact other n ho
  case dwell =>
    intro h6
    have hkept : d.dwell = (s.streams.get i).dwell :=
      storeAll_keeps (P := fun x => x.dwell = (s.streams.get i).dwell)
        (fun p hp _ _ hy hx => (streamStore_dwell (h6 p hp) hy).trans hx) hd rfl
    rw [afterWrite_dwell _ _ h6, hkept]

/-! ## What a GROUP write names and refuses -/

/-- The lane map entry of a class that a field is the entry of. -/
def entrySeen (d : Group) (n : Nat) : Option LaneId := (fieldBelow 4 n).bind d.laneMap.get

/-- The lane that a value stored in a lane map entry names, if it names one. -/
def entryWritten (n : Nat) (v : BitVec 64) : Option LaneId := (fieldBelow 4 n).bind fun _ => fieldBelow 48 v.toNat

theorem entrySeen_class (d : Group) (c : HeatClass) : entrySeen d c.val = d.laneMap.get c := by
  simp [entrySeen, fieldBelow]

/-- A value stored in a lane map entry is the lane it names, or none (R39, R173). -/
theorem optValue_lane {v : BitVec 64} {o : Option LaneId} (h : optValue 48 v = some o) :
    o = fieldBelow 48 v.toNat := by
  obtain ⟨rfl, rfl⟩ | ⟨i, rfl, hi⟩ := optValue_some h
  · rfl
  · exact (fieldBelow_some.mpr hi).symm

/-- A field that is no lane map entry leaves the lane map. -/
theorem groupStore_laneMap {d d' : Group} {f : Nat} {v : BitVec 64} (hf : 4 ≤ f) (h : d.store f v = some d') :
    d'.laneMap = d.laneMap := by
  simp only [Group.store, fieldBelow_none.mpr hf] at h
  split at h
  · split at h
    · cases h; rfl
    · split at h <;> cases h; rfl
  · split at h
    · obtain ⟨_, _, rfl⟩ := Option.map_eq_some_iff.mp h; rfl
    · cases h

/-- A field of a group descriptor that is stored changes no lane map entry but its own. -/
theorem groupStore_seen (d : Group) (f : Nat) (v : BitVec 64) (d' : Group) (h : d.store f v = some d') (n : Nat) :
    entrySeen d' n = if n = f then entryWritten f v else entrySeen d n := by
  by_cases hf : f < 4
  · obtain ⟨c, rfl⟩ : ∃ c : HeatClass, f = c.val := ⟨⟨f, hf⟩, rfl⟩
    rw [groupStore_entry] at h
    obtain ⟨e, he, rfl⟩ := Option.map_eq_some_iff.mp h
    by_cases hn : n < 4
    · obtain ⟨k, rfl⟩ : ∃ k : HeatClass, n = k.val := ⟨⟨n, hn⟩, rfl⟩
      simp only [entrySeen_class, Table.get_set, Fin.val_inj]
      simp [entryWritten, fieldBelow_some.mpr (rfl : c.val = c.val), optValue_lane he]
    · have hb : fieldBelow 4 n = none := fieldBelow_none.mpr (Nat.le_of_not_lt hn)
      simp [entrySeen, hb, show n ≠ c.val by omega]
  · have h4 : 4 ≤ f := Nat.le_of_not_lt hf
    unfold entrySeen entryWritten
    rw [groupStore_laneMap h4 h]
    split
    · next hn => subst hn; rw [fieldBelow_none.mpr h4]; rfl
    · rfl

/-- The lanes that a list's selected entries name are those of the descriptor as it would stand (R39, R40). -/
theorem namedLanes_eq {l : List (Byte × BitVec 64)} (hl : (l.map Prod.fst).Nodup) {d d' : Group}
    (h : storeAll Group.store d l = some d') : namedLanes l d' = namedBy l := by
  obtain ⟨named, _⟩ := storeAll_seen groupStore_seen hl h
  rw [namedLanes, namedBy, show [0, 1, 2, 3] = allClasses.map Fin.val from rfl, List.filterMap_map]
  refine List.filterMap_congr fun c _ => ?_
  simp only [Function.comp_apply]
  cases hf : l.find? fun p => p.1.toNat == c.val with
  | none =>
    have hs : selects l c.val = false :=
      selects_eq_false.mpr fun p hp hc => by simpa [hc] using List.find?_eq_none.mp hf p hp
    simp [hs]
  | some p =>
    have hp : p ∈ l := List.mem_of_find?_eq_some hf
    have hc : p.1.toNat = c.val := by simpa using List.find?_some hf
    have hs : selects l c.val = true := selects_iff.mpr ⟨p, hp, hc⟩
    have hget := named p hp
    rw [hc, entrySeen_class, entryWritten, fieldBelow_some.mpr (rfl : c.val = c.val)] at hget
    simp only [hs, if_true, hget]
    rfl

/-- An entry that may name its lane passes the check (R40). -/
theorem laneCheck_passes {s : State} {g : GroupId} {l : LaneId} (h : s.MayName g l) : s.laneCheck g l = none := by
  obtain ⟨hlim, h⟩ := h
  unfold State.laneCheck
  dsimp only
  rw [if_neg (by omega)]
  obtain hc | ⟨ho, hst⟩ := h
  · rw [if_pos hc]
  · split
    · rfl
    · simp [ho]

/-- An entry that may not name its lane fails: the limit first, then the owner, then the state (R40). -/
theorem laneCheck_fails {s : State} {g : GroupId} {l : LaneId} (h : ¬ s.MayName g l) : s.laneCheck g l =
    some (if s.settings.laneLimit ≤ l.val then .badValue
      else if (s.lanes.get l).owner ≠ some g then .conflict else .state) := by
  unfold State.laneCheck
  dsimp only
  split
  · rfl
  · next hlim =>
    have hname : ¬ ((s.lanes.get l).state = .closed ∨ ((s.lanes.get l).owner = some g
        ∧ ((s.lanes.get l).state = .opening ∨ (s.lanes.get l).state = .opened))) :=
      fun hm => h ⟨Nat.lt_of_not_le hlim, hm⟩
    rw [if_neg fun hc => hname (.inl hc)]
    split
    · rfl
    · next ho => rw [if_neg fun hst => hname (.inr ⟨not_not.mp ho, hst⟩)]

section storeGroup
variable {s : State} {a : Admin} {g : GroupId} {l : List (Byte × BitVec 64)}

/-- A GROUP write that repeats a field or has a value out of range is answered BAD-VALUE (R39). -/
theorem storeGroup_badValue (h : ¬ (l.map Prod.fst).Nodup ∨ ∃ p ∈ l, ¬ GroupValue p.1.toNat p.2) :
    storeGroup a g l s = s.reply a .badValue := by
  by_cases hl : (l.map Prod.fst).Nodup
  · have hnone : storeAll Group.store (s.groups.get g) l = none := by
      rw [← Option.not_isSome_iff_eq_none, storeAll_isSome groupStore_isSome]
      simpa using h.resolve_left (not_not.mpr hl)
    simp [storeGroup, repeats_eq_false.mpr hl, hnone]
  · simp [storeGroup, repeats_eq_true.mpr hl]

/-- A GROUP write of which a named lane fails is answered the status of the first that does (R40). -/
theorem storeGroup_refused (hl : (l.map Prod.fst).Nodup) (hv : ∀ p ∈ l, GroupValue p.1.toNat p.2) {st : Status}
    (hs : (namedBy l).findSome? (s.laneCheck g) = some st) : storeGroup a g l s = s.reply a st := by
  obtain ⟨d, hd⟩ := Option.isSome_iff_exists.mp
    ((storeAll_isSome groupStore_isSome l (s.groups.get g)).mpr hv)
  simp [storeGroup, repeats_eq_false.mpr hl, hd, namedLanes_eq hl hd, hs]

end storeGroup

/-! ## What a SETTINGS write refuses -/

section settingsWrite
variable {s : State} {l : List (Byte × BitVec 64)}

theorem selectsSweepItem_iff : selectsSweepItem l = true ↔ ∃ p ∈ l, 16 ≤ p.1.toNat ∧ p.1.toNat ≤ 20 := by
  simp [selectsSweepItem]

/-- A SETTINGS write that selects a sweep item is answered READ-ONLY (R171 step 1). -/
theorem settingsWrite_readOnly (h : ∃ p ∈ l, 16 ≤ p.1.toNat ∧ p.1.toNat ≤ 20) :
    settingsWrite s l = (.readOnly, s.settings) := by
  simp [settingsWrite, selectsSweepItem_iff.mpr h]

/-- A SETTINGS write that repeats a field or has a value out of range is answered BAD-VALUE (R171 steps 2 and
3). -/
theorem settingsWrite_badValue (hr : ∀ p ∈ l, ¬ (16 ≤ p.1.toNat ∧ p.1.toNat ≤ 20))
    (h : ¬ (l.map Prod.fst).Nodup ∨ ∃ p ∈ l, ¬ SettingValue p.1.toNat p.2) :
    settingsWrite s l = (.badValue, s.settings) := by
  have hs : selectsSweepItem l = false :=
    eq_false_of_ne_true fun hs => (selectsSweepItem_iff.mp hs).elim fun p ⟨hp, hn⟩ => hr p hp hn
  by_cases hl : (l.map Prod.fst).Nodup
  · have hnone : storeAll Settings.store s.settings l = none := by
      rw [← Option.not_isSome_iff_eq_none, storeAll_isSome settingsStore_isSome]
      simpa using h.resolve_left (not_not.mpr hl)
    simp [settingsWrite, hs, repeats_eq_false.mpr hl, hnone]
  · simp [settingsWrite, hs, repeats_eq_true.mpr hl]

end settingsWrite

/-! ## The GROUP and SETTINGS writes at the head of the front queue -/

section writes
variable {s : State} {id index : BitVec 16} {fields : List (Byte × BitVec 64)} {rest : List FrontRec}

theorem exec_groupWrite (h : s.FrontIsNext (.admin ⟨id, .tableWrite 2 index fields⟩) rest) {g : GroupId}
    (hg : g.val = index.toNat) : exec .groupTableWrite s = .next (State.latchLevels (transmitterChoice
      (storeGroup ⟨id, .tableWrite 2 index fields⟩ g fields (s.frontTaken rest)))) := by
  have hi : groupOf index.toNat = some g := fieldBelow_some.mpr hg.symm
  rw [← commit_some h.1, exec, execGroupTableWrite, onAdmin_next h]
  simp [hi, tableOfCode]

theorem exec_groupWrite_badIndex (h : s.FrontIsNext (.admin ⟨id, .tableWrite 2 index fields⟩) rest)
    (hi : 128 ≤ index.toNat) : exec .groupTableWrite s =
      .next (State.latchLevels ((s.frontTaken rest).createF (.adminReply id .badIndex .none))) := by
  have hi : groupOf index.toNat = none := fieldBelow_none.mpr hi
  rw [← commit_some h.1, exec, execGroupTableWrite, onAdmin_next h]
  simp [hi, tableOfCode, State.reply]

theorem exec_settingsWrite (h : s.FrontIsNext (.admin ⟨id, .tableWrite 3 0 fields⟩) rest) {st : Status}
    {d : Settings} (hw : settingsWrite (s.frontTaken rest) fields = (st, d)) :
    exec .settingsTableWrite s = .next (State.latchLevels (State.createF
      { s.frontTaken rest with settings := d } (.adminReply id st .none))) := by
  rw [← commit_some h.1, exec, execSettingsTableWrite, onAdmin_next h]
  simp [hw, tableOfCode, State.reply]

theorem exec_settingsWrite_badIndex (h : s.FrontIsNext (.admin ⟨id, .tableWrite 3 index fields⟩) rest)
    (hi : index ≠ 0) : exec .settingsTableWrite s =
      .next (State.latchLevels ((s.frontTaken rest).createF (.adminReply id .badIndex .none))) := by
  have hi : index.toNat ≠ 0 := fun h0 => hi (BitVec.eq_of_toNat_eq h0)
  rw [← commit_some h.1, exec, execSettingsTableWrite, onAdmin_next h]
  simp [hi, tableOfCode, State.reply]

end writes

/-- Settles O18: for each table the checks in their order, each with the status it answers and nothing
stored. -/
theorem refusedWritesStoreNothing : Obligations.RefusedWritesStoreNothing := by
  intro s id index fields rest
  refine ⟨?badIndex, ?stream, ?group, ?settings⟩
  case badIndex => exact fun h hi => exec_streamWrite_badIndex (.inl ⟨rest, h, rfl⟩) hi
  case stream =>
    intro base h hi hp
    have ht : StreamTaken s ⟨id, .tableWrite 1 index fields⟩ base := h.imp_left fun ⟨hn, hb⟩ => ⟨rest, hn, hb⟩
    have hw := exec_streamWrite_served (i := ⟨index.toNat, hi⟩) ht rfl hp
    exact ⟨fun h9 => by rw [hw, storeStream_readOnly h9]; rfl,
      fun h9 hbad => by rw [hw, storeStream_badValue h9 hbad]; rfl⟩
  case group =>
    intro h
    refine ⟨fun hi => exec_groupWrite_badIndex h hi, fun hi hbad => ?_, ?_⟩
    · rw [exec_groupWrite (g := ⟨index.toNat, hi⟩) h rfl, storeGroup_badValue hbad]
      rfl
    · intro g before after l hg hl hv hnamed hbefore hfails
      have hpass : before.findSome? ((s.frontTaken rest).laneCheck g) = none :=
        List.findSome?_eq_none_iff.mpr fun m hm => laneCheck_passes (hbefore m hm)
      have hfirst : (namedBy fields).findSome? ((s.frontTaken rest).laneCheck g) = s.laneCheck g l := by
        rw [hnamed, List.findSome?_append, hpass, Option.none_or, List.findSome?_cons,
          show (s.frontTaken rest).laneCheck g l = s.laneCheck g l from rfl, laneCheck_fails hfails]
      rw [exec_groupWrite h hg, storeGroup_refused hl hv (hfirst.trans (laneCheck_fails hfails))]
      rfl
  case settings =>
    intro h
    refine ⟨exec_settingsWrite_badIndex h, ?_, ?_⟩
    · rintro rfl hro
      exact exec_settingsWrite h (settingsWrite_readOnly hro)
    · rintro rfl hro hbad
      exact exec_settingsWrite h (settingsWrite_badValue hro hbad)

end Sys2Proof.Proofs
end

section
/-! SUPPORT. The classification of a WRITE or RELOCATE in hand: accepted, or refused by the first check that
fails (R53, R56, R57, R58). -/

namespace Sys2Proof.Proofs
open Sys2Proof Sys2Proof.Machine Sys2Proof.Laws

/-- A group without an entry yields no lane (R37). -/
theorem search_none {g : Group} (h : ∀ c, g.laneMap.get c = none) (c : HeatClass) : g.search c = none :=
  List.findSome?_eq_none_iff.mpr fun k _ => h k

/-- The backoffs counter counts one refusal and saturates (R106). -/
theorem countBackoff_eq (s : State) (l : LaneId) : countBackoff l s = s.setLane l { s.lanes.get l with
    backoffs := if (s.lanes.get l).backoffs < 4294967295 then (s.lanes.get l).backoffs + 1 else 4294967295 } :=
  rfl

section write
variable {s : State} {w : WriteRec}

/-- A WRITE whose mode left RUN while it was in hand is refused without an access (R54; log entry 7). -/
theorem exec_writeClassification_late (hr : s.inReset = false) (hi : s.inHand = some (.write w))
    (hm : s.mode ≠ .run) : exec .writeClassification s =
      .next (State.latchLevels (refuseWrite w .power { s with inHand := none })) := by
  simp [exec, execWriteClassification, hi, hm, commit_some hr]

/-- A WRITE in hand whose access the port serves is classified in it (R53, R56). -/
theorem exec_writeClassification_served (hr : s.inReset = false) (hi : s.inHand = some (.write w))
    (hm : s.mode = .run) (hp : s.PortFree) : exec .writeClassification s = .next (State.latchLevels
      (transmitterChoice (classifyWrite w (State.accessServed { s with inHand := none })))) := by
  simp [exec, execWriteClassification, hi, hm, (portServesClassifier_iff s).mpr hp, commit_some hr, countAccess_eq]

theorem classifyWrite_closed (h : (s.streams.get w.stream).admitted = false) :
    classifyWrite w s = refuseWrite w .closed s := by
  simp [classifyWrite, h]

variable {d : Stream} (hd : d = s.streams.get w.stream) (ha : d.admitted = true)
include hd ha

theorem classifyWrite_noLane (h : ∀ c, (s.groups.get d.group).laneMap.get c = none) :
    classifyWrite w s = refuseWrite w .noLane s := by
  subst hd
  simp [classifyWrite, ha, search_none h]

variable {l : LaneId} (hl : (s.groups.get d.group).search (d.pinned.getD d.current) = some l)
include hl

theorem classifyWrite_noRoom (h : (s.lanes.get l).room s.settings.unitSize < w.length) :
    classifyWrite w s = refuseWrite w .noRoom (countBackoff l s) := by
  subst hd
  simp [classifyWrite, ha, hl, Nat.not_le.mpr h]

theorem classifyWrite_accepted (h : w.length ≤ (s.lanes.get l).room s.settings.unitSize) :
    classifyWrite w s = (placeSectors l (writeSectors w d.group)
      (s.setFrontTag w.tag (acceptedTag w.length w.stream))).setStream w.stream (d.countWrite w.length) := by
  subst hd
  simp [classifyWrite, ha, hl, h]

end write

/-- Settles O23: the access classifies the WRITE, and every check passes. -/
theorem writeAccepted : Obligations.WriteAccepted := by
  intro s w l hr hi hm hp d hd ha hl hroom
  rw [exec_writeClassification_served hr hi hm hp,
    classifyWrite_accepted (s := State.accessServed { s with inHand := none }) hd ha hl hroom,
    Stream.countWrite, Nat.min_def]
  rfl

/-- Settles O24: POWER before the access, and in it CLOSED, NO-LANE and NO-ROOM in their order. -/
theorem writeRefused : Obligations.WriteRefused := by
  rintro s w hr hi d h hd rfl
  have hserved := exec_writeClassification_served hr hi
  refine ⟨fun hm => exec_writeClassification_late hr hi hm, fun hm hp ha => ?closed, fun hm hp ha hnone => ?noLane,
    fun hm hp ha l hl hroom => ?noRoom⟩
  case closed =>
    rw [hserved hm hp, classifyWrite_closed (s := State.accessServed { s with inHand := none }) (hd ▸ ha)]
    rfl
  case noLane =>
    rw [hserved hm hp, classifyWrite_noLane (s := State.accessServed { s with inHand := none }) hd ha hnone]
    rfl
  case noRoom =>
    rw [hserved hm hp, classifyWrite_noRoom (s := State.accessServed { s with inHand := none }) hd ha hl hroom,
      countBackoff_eq]
    rfl

section relocate
variable {s : State} {x : RelocateRec}

/-- A RELOCATE whose mode left RUN while it was in hand is refused without an access (R54; log entry 7). -/
theorem exec_relocateClassification_late (hr : s.inReset = false) (hi : s.inHand = some (.relocate x))
    (hm : s.mode ≠ .run) : exec .relocateClassification s =
      .next (State.latchLevels (refuseRelocate x .power { s with inHand := none })) := by
  simp [exec, execRelocateClassification, hi, hm, commit_some hr]

/-- A RELOCATE in hand whose access the port serves is classified in it (R57, R58). -/
theorem exec_relocateClassification_served (hr : s.inReset = false) (hi : s.inHand = some (.relocate x))
    (hm : s.mode = .run) (hp : s.PortFree) : exec .relocateClassification s = .next (State.latchLevels
      (transmitterChoice (classifyRelocate x (State.accessServed { s with inHand := none })))) := by
  simp [exec, execRelocateClassification, hi, hm, (portServesClassifier_iff s).mpr hp, commit_some hr, countAccess_eq]

variable {d : Stream} (hd : d = s.streams.get x.stream)
include hd

theorem classifyRelocate_noLane (h : ∀ c, (s.groups.get d.group).laneMap.get c = none) :
    classifyRelocate x s = refuseRelocate x .noLane s := by
  subst hd
  simp [classifyRelocate, search_none h]

variable {l : LaneId} (hl : (s.groups.get d.group).search (d.relocClass.getD 0) = some l)
include hl

theorem classifyRelocate_noRoom (h : (s.lanes.get l).room s.settings.unitSize < x.sectors.length) :
    classifyRelocate x s = refuseRelocate x .noRoom (countBackoff l s) := by
  subst hd
  simp only [classifyRelocate, hl, if_neg (Nat.not_le.mpr h)]

theorem classifyRelocate_accepted (h : x.sectors.length ≤ (s.lanes.get l).room s.settings.unitSize) :
    classifyRelocate x s = placeSectors l (relocateSectors x d.group)
      (s.setRelocTag x.tag (acceptedTag x.sectors.length x.stream)) := by
  subst hd
  simp only [classifyRelocate, hl, if_pos h]

end relocate

/-- Settles O25: POWER before the access, and in it NO-LANE, NO-ROOM or acceptance. -/
theorem relocateClassified : Obligations.RelocateClassified := by
  rintro s x hr hi d h hd rfl
  have hserved := exec_relocateClassification_served hr hi
  refine ⟨fun hm => exec_relocateClassification_late hr hi hm, fun hm hp hnone => ?noLane,
    fun hm hp l hl => ⟨fun hroom => ?noRoom, fun hroom => ?accepted⟩⟩
  case noLane =>
    rw [hserved hm hp, classifyRelocate_noLane (s := State.accessServed { s with inHand := none }) hd hnone]
    rfl
  case noRoom =>
    rw [hserved hm hp, classifyRelocate_noRoom (s := State.accessServed { s with inHand := none }) hd hl hroom,
      countBackoff_eq]
    rfl
  case accepted =>
    rw [hserved hm hp, classifyRelocate_accepted (s := State.accessServed { s with inHand := none }) hd hl hroom]
    rfl

end Sys2Proof.Proofs
end

section
/-! SUPPORT. The sample tick, and what a visit makes of a stream: its rate, its class and the sweep's next
position (R17, R19 to R21, R23, R25 to R29). -/

namespace Sys2Proof.Proofs
open Sys2Proof Sys2Proof.Machine Sys2Proof.Laws

/-! ## The sample tick -/

/-- A due sample tick restarts the timer, and the sweep takes the tick (R17). -/
theorem exec_sampleTick {s t : State} (hr : s.inReset = false) (hd : s.sample.length ≤ s.sample.count)
    (ht : sweepTick { s with sample := ⟨0, s.settings.period⟩ } = t) :
    exec .sampleTick s = .next t.latchLevels := by
  simp [exec, execSampleTick, State.sampleDue, hd, commit_some hr, ht]

section sweepTick
variable {s : State}

theorem sweepTick_idle (h : s.sweep.state = .idle) :
    sweepTick s = { s with sweep := { s.sweep with state := .running, position := 0 } } := by
  simp [sweepTick, h]

theorem sweepTick_pending (h : s.sweep.state = .running) (hp : s.sweep.pending = false) :
    sweepTick s = { s with sweep := { s.sweep with pending := true } } := by
  simp [sweepTick, h, hp]

/-- With a sweep running and a tick pending the tick is lost; the count saturates (R20). -/
theorem sweepTick_lost (h : s.sweep.state = .running) (hp : s.sweep.pending = true) :
    sweepTick s = State.raise { s with sweep := { s.sweep with
      lost := if s.sweep.lost < 65535 then s.sweep.lost + 1 else 65535 } } .tickLost := by
  have hmin : min (s.sweep.lost + 1) Config.lostTicksMax =
      if s.sweep.lost < 65535 then s.sweep.lost + 1 else 65535 := by
    simp only [Config.lostTicksMax]
    split <;> omega
  simp [sweepTick, h, hp, hmin]

end sweepTick

/-- Settles O9: the timer restarts, and the tick finds the sweep idle, running, or running with a tick
pending. -/
theorem sampleTick : Obligations.SampleTick := by
  intro s hr hd
  exact ⟨_, rfl, fun hs => exec_sampleTick hr hd (sweepTick_idle hs),
    fun hs hp => exec_sampleTick hr hd (sweepTick_pending hs hp),
    fun hs hp => exec_sampleTick hr hd (sweepTick_lost hs hp)⟩

/-! ## The rate -/

/-- A gap divided by 2 to the power k and rounded up, times 2 to the power k, covers the gap by less than one
such power (R27). -/
theorem gapStep_covers (k gap : Nat) :
    gap ≤ gapStep k gap * 2 ^ k ∧ gapStep k gap * 2 ^ k < gap + 2 ^ k := by
  have hk : 0 < 2 ^ k := Nat.two_pow_pos k
  have hle : gapStep k gap * 2 ^ k ≤ gap + 2 ^ k - 1 := Nat.div_mul_le_self ..
  have hlt : gap + 2 ^ k - 1 < gapStep k gap * 2 ^ k + 2 ^ k := Nat.lt_div_mul_add hk
  omega

/-- The rate moves as R27 says. -/
theorem moveRate_rateStep (k r t : Nat) : RateStep k r t (moveRate k r t) := by
  unfold moveRate
  split
  · next h =>
    obtain ⟨hlo, hhi⟩ := gapStep_covers k (t - r)
    exact ⟨_, .inl ⟨h.le, hlo, hhi, rfl⟩⟩
  · split
    · next h =>
      obtain ⟨hlo, hhi⟩ := gapStep_covers k (r - t)
      have hle := gapStep_le k (gap := r - t) (by omega)
      exact ⟨_, .inr ⟨h.le, hlo, hhi, by omega⟩⟩
    · exact ⟨0, .inl ⟨by omega, by omega, by simp, rfl⟩⟩

/-- A step that covers the gap by less than one power of 2 is no longer than the gap, and is 0 only with no gap
to cover (R27). -/
theorem step_le_gap {k q gap : Nat} (hlo : gap ≤ q * 2 ^ k) (hhi : q * 2 ^ k < gap + 2 ^ k) :
    q ≤ gap ∧ (0 < gap → 0 < q) := by
  constructor
  · by_contra hq
    have hmul : (gap + 1) * 2 ^ k ≤ q * 2 ^ k := Nat.mul_le_mul_right _ (by omega)
    have hgap : gap ≤ gap * 2 ^ k := Nat.le_mul_of_pos_right _ (Nat.two_pow_pos k)
    rw [Nat.add_mul] at hmul
    omega
  · intro hg
    rcases Nat.eq_zero_or_pos q with rfl | hq
    · omega
    · exact hq

/-- A rate that moves as R27 says stays between where it was and its target, and moves unless it is there. -/
theorem rateStep_between {k r t r' : Nat} (h : RateStep k r t r') :
    min r t ≤ r' ∧ r' ≤ max r t ∧ (r ≠ t → r' ≠ r) := by
  obtain ⟨q, ⟨hle, hlo, hhi, hr⟩ | ⟨hle, hlo, hhi, hr⟩⟩ := h
  all_goals
    have hq := step_le_gap hlo hhi
    omega

/-! ## The class -/

theorem threshold_bound (st : Settings) (n : Nat) : (st.threshold n : Int) = st.bound n := by
  unfold Settings.threshold Settings.bound
  split
  · rfl
  · split <;> rfl

/-- The up-step of R29, on integers. -/
theorem stepsUp_iff (st : Settings) (c : HeatClass) (r : Nat) :
    st.stepsUp c r = true ↔ c.val < 3 ∧ st.bound (c.val + 1) + st.hysteresis ≤ (r : Int) := by
  simp only [Settings.stepsUp, Bool.and_eq_true, decide_eq_true_eq, ← threshold_bound]
  omega

/-- The down-step of R29, on integers. -/
theorem stepsDown_iff (st : Settings) (c : HeatClass) (r : Nat) :
    st.stepsDown c r = true ↔ 0 < c.val ∧ (r : Int) < st.bound c.val - st.hysteresis := by
  simp only [Settings.stepsDown, Bool.and_eq_true, decide_eq_true_eq, ← threshold_bound]
  omega

/-- A class evaluation changes the class and the dwell alone, as R29 says. -/
theorem evaluate_classStep (st : Settings) {d : Stream} (h : d.dwell = 0) :
    ∃ current dwell, d.evaluate st = { d with current := current, dwell := dwell }
      ∧ ClassStep st d.current d.rate current dwell := by
  unfold Stream.evaluate ClassStep
  simp only [stepsUp_iff, stepsDown_iff]
  split
  · next hup => exact ⟨_, _, rfl, Fin.val_add_one_of_lt (Fin.lt_def.mpr hup.1), rfl⟩
  · split
    · next hdown =>
      have hval : (d.current - 1).val = d.current.val - 1 :=
        Fin.val_sub_one_of_ne_zero (Fin.pos_iff_ne_zero.mp hdown.1)
      exact ⟨_, _, rfl, by omega, rfl⟩
    · exact ⟨_, _, rfl, rfl, h⟩

/-- What a visit makes of a stream (R25 to R29). -/
theorem visit_law (st : Settings) (d : Stream) : VisitLaw st d (d.visit st) := by
  have hrate := moveRate_rateStep st.shift d.rate (d.count * 256)
  unfold VisitLaw Stream.visit
  by_cases ht : d.track = true
  · rw [if_neg (by simp [ht]), if_pos ht]
    by_cases hw : 0 < d.dwell
    · simp only [if_pos hw]
      exact ⟨_, _, _, rfl, hrate, rfl, by omega⟩
    · simp only [if_neg hw]
      obtain ⟨current, dwell, he, hc⟩ := evaluate_classStep st
        (d := { d with rate := moveRate st.shift d.rate (d.count * 256), count := 0 }) (Nat.eq_zero_of_not_pos hw)
      exact ⟨_, current, dwell, he, hrate, hc⟩
  · rw [if_pos (by simpa using ht), if_neg ht]

/-- Settles O11: the rate of a tracked stream moves as R27 says, so it stays between. -/
theorem rateStaysBetween : Obligations.RateStaysBetween := by
  intro st d ht
  have hv := visit_law st d
  rw [VisitLaw, if_neg (by simp [ht])] at hv
  obtain ⟨rate, current, dwell, he, hrate, _⟩ := hv
  rw [he]
  exact rateStep_between hrate

/-! ## The visit -/

/-- The sweep goes on to its next position, or ends and takes the pending tick (R21, R23). -/
theorem afterVisit_eq (w : Sweep) : w.afterVisit =
    if w.position.val < 1023 then { w with position := w.position + 1 }
    else { state := if w.pending then .running else .idle, position := 0, pending := false,
           lost := w.lost, completed := w.completed + 1 } := by
  unfold Sweep.afterVisit
  by_cases h : w.position.val < 1023
  · rw [if_pos h, if_neg (by omega)]
  · rw [if_neg h, if_pos (by omega)]

/-- A visit that waits alone, or behind 8 accesses, is the port's turn (R10). -/
theorem portServesVisit_of {s : State} (hs : s.sweep.state = .running)
    (hp : s.inHand = none ∨ 8 ≤ s.classifierRun) : s.portServesVisit = true := by
  obtain hi | hn := hp
  · simp [State.portServesVisit, State.visitWaits, State.accessWaits, hs, hi]
  · simp [State.portServesVisit, State.visitWaits, hs, hn]

/-- A visit that the port serves (R10, R23). -/
theorem exec_visit_served {s : State} (hr : s.inReset = false) (hp : s.portServesVisit = true) :
    exec .visit s = .next (State.latchLevels { s with
      streams := s.streams.set s.sweep.position ((s.streams.get s.sweep.position).visit s.settings)
      classifierRun := 0
      sweep := s.sweep.afterVisit }) := by
  rw [exec, execVisit, if_pos hp, commit_some hr]
  rfl

/-- Settles O10: the port serves the visit, which changes the stream as `visit_law` says. -/
theorem visit : Obligations.Visit := by
  intro s hr hs _ hp
  exact ⟨_, visit_law _ _, by rw [exec_visit_served hr (portServesVisit_of hs hp), afterVisit_eq]⟩

end Sys2Proof.Proofs
end

section
/-! SUPPORT. The current class of a stream: which commands may change it, and by how much (R30). -/

namespace Sys2Proof.Proofs
open Sys2Proof Sys2Proof.Machine Sys2Proof.Laws

/-! ## The current class -/

/-- Every stream has the same current class in both states. -/
def SameClasses (s t : State) : Prop := ∀ i, (t.streams.get i).current = (s.streams.get i).current

theorem SameClasses.of_streams {s t : State} (h : t.streams = s.streams) : SameClasses s t := fun i => by rw [h]

/-- A WRITE counts its sectors and leaves every class (R7, R8). -/
theorem classifyWrite_classes (w : WriteRec) (s : State) : SameClasses s (classifyWrite w s) := by
  unfold classifyWrite
  dsimp only
  split
  · split
    · exact .of_streams (by simp)
    · split
      · intro i
        simp only [State.setStream_streams, placeSectors_frame, State.setFrontTag_streams, Table.get_set]
        split
        · next h => rw [h]; rfl
        · rfl
      · exact .of_streams (by simp)
  · exact .of_streams (by simp)

/-- A step leaves the classes when what it does where it is due leaves them. -/
theorem commit_classes {s t : State} {r : Option State} (h : commit s r = .next t)
    (hr : ∀ u, r = some u → SameClasses s u) : SameClasses s t := by
  unfold commit at h
  cases h
  split
  · exact fun _ => rfl
  · split
    · exact fun i => hr _ rfl i
    · exact fun _ => rfl

/-- An ADMIN step leaves the classes when what it executes on the state that took the request leaves the
streams. -/
theorem onAdmin_classes {s t : State} {f : Admin → State → Option State} (h : commit s (onAdmin s f) = .next t)
    (hf : ∀ a u, f a s.takeFront = some u → u.streams = s.takeFront.streams) : SameClasses s t :=
  commit_classes h fun u hu => by
    obtain ⟨a, _, hu⟩ := onAdmin_some hu
    exact .of_streams (hf a u hu)

theorem readTable_classes {s t : State} {tbl : TableName} {look : State → Nat → ReplyData}
    (h : commit s (readTable s tbl look) = .next t) : SameClasses s t :=
  onAdmin_classes h fun a u hu => by
    repeat' split at hu
    all_goals cases hu <;> simp

theorem onLaneRequest_classes {s t : State} {act : LaneAction} {f : Admin → LaneId → State → State}
    (h : commit s (onLaneRequest s act f) = .next t) (hf : ∀ a l v, (f a l v).streams = v.streams) :
    SameClasses s t :=
  onAdmin_classes h fun a u hu => by
    repeat' split at hu
    all_goals cases hu <;> simp [hf]

theorem onResult_streams {s : State} {f : LaneField} {b : BlockAddr} {i : Fin 2048}
    {k : LaneId → Issued → State → State} (hk : ∀ l u v, (k l u v).streams = v.streams) :
    (onResult f b i k s).streams = s.streams := by
  unfold onResult
  dsimp only
  repeat' split
  all_goals simp [hk]

theorem offerFront_streams {s : State} {r : FrontRec} {full : State → State}
    (hf : (full s).streams = s.streams) : (offerFront r full s).streams = s.streams := by
  unfold offerFront
  split
  · rfl
  · exact hf

/-- The commands of which one may change a current class (R30). -/
def MayMoveClass (c : Instr) : Prop :=
  c = .visit ∨ c = .streamTableWrite ∨ c = .powerOn ∨ c = .lineReset

/-- No other command changes a current class (R30). -/
theorem exec_classes {c : Instr} (hc : ¬ MayMoveClass c) {s t : State} (h : exec c s = .next t) :
    SameClasses s t := by
  simp only [MayMoveClass, not_or] at hc
  obtain ⟨hvisit, hwrite, hpower, hline⟩ := hc
  cases c <;> simp only [exec] at h
  case visit | streamTableWrite | powerOn | lineReset => contradiction
  case resetEnd =>
    simp only [execResetEnd] at h
    cases h
    repeat' split
    all_goals exact .of_streams (by simp)
  case holdupAsserted =>
    unfold execHoldupAsserted at h
    exact commit_classes (s := { s with holdupPin := true }) h fun u hu => by
      cases hu
      split <;> exact .of_streams (by simp)
  case holdupDeasserted =>
    unfold execHoldupDeasserted at h
    exact commit_classes (s := { s with holdupPin := false }) h fun u hu => by
      cases hu
      exact .of_streams (by simp)
  case groupTableRead | settingsTableRead | laneTableRead | unitTableRead | frontTagTableRead | relocTagTableRead
    | resetCauseTableRead => exact readTable_classes h
  case drain | stop | clear => exact onLaneRequest_classes h (by simp)
  case resultOk | resultFail | resultAborted =>
    refine commit_classes h fun u hu => ?_
    cases hu
    exact .of_streams (onResult_streams (by simp))
  case groupTableWrite | settingsTableWrite | tableWrite | conditionRead | conditionClear | captureTake
    | softReset =>
    refine onAdmin_classes h fun a u hu => ?_
    repeat' split at hu
    all_goals cases hu <;> simp
  case writeClassification =>
    refine commit_classes h fun u hu => ?_
    repeat' split at hu
    all_goals cases hu
    · exact .of_streams (by simp)
    · intro i
      simpa using classifyWrite_classes _ (State.countAccess { s with inHand := none }) i
  case streamTableRead =>
    refine commit_classes h fun u hu => .of_streams ?_
    split at hu
    · next a s' hq =>
      have hs' : s'.streams = s.streams := by
        obtain ⟨_, rfl⟩ | ⟨_, _, rfl⟩ := streamRequest_some hq <;> simp
      unfold streamAccess at hu
      repeat' split at hu
      all_goals cases hu <;> simp [hs']
    · cases hu
  case writeArrival | adminArrival =>
    refine commit_classes h fun u hu => .of_streams ?_
    cases hu
    split
    · simp
    · exact offerFront_streams (by simp)
  case sampleTick | sealAgeExpiry | resultTimeout | faultResidencyExpiry | relocateArrival | write | relocate
    | relocateClassification | grant | holdOn | holdOff | bLinkSendEnd | fLinkSendEnd | warningTakenAfterSoftReset
    | malformedRecord =>
    refine commit_classes h fun u hu => .of_streams ?_
    repeat' split at hu
    all_goals cases hu
    all_goals repeat' split
    all_goals simp [violateHold]

/-- A visit as R25 to R29 have it leaves the class, or moves it by one step at dwell 0 (R30). -/
theorem visitLaw_class {st : Settings} {d d' : Stream} (h : VisitLaw st d d') :
    d'.current = d.current ∨ (d.dwell = 0
      ∧ (d'.current.val = d.current.val + 1 ∨ d'.current.val + 1 = d.current.val)) := by
  unfold VisitLaw at h
  split at h
  · exact .inl (by rw [h])
  · obtain ⟨rate, current, dwell, rfl, _, hc⟩ := h
    split at hc
    · exact .inl hc.1
    · next hw =>
      have hw : d.dwell = 0 := Nat.eq_zero_of_not_pos hw
      unfold ClassStep at hc
      split at hc
      · exact .inr ⟨hw, .inl hc.1⟩
      · split at hc
        · exact .inr ⟨hw, .inr hc.1⟩
        · exact .inl hc.1

/-- A visit changes the stream at the sweep's position alone, and only when the port serves it (R10, R23). -/
theorem exec_visit_streams {s t : State} (h : exec .visit s = .next t) : t.streams = s.streams
    ∨ t.streams = s.streams.set s.sweep.position ((s.streams.get s.sweep.position).visit s.settings) := by
  by_cases hr : s.inReset = true
  · simp only [exec, execVisit, commit, if_pos hr] at h
    cases h
    exact .inl rfl
  · by_cases hp : s.portServesVisit = true
    · rw [exec_visit_served (eq_false_of_ne_true hr) hp] at h
      cases h
      exact .inr rfl
    · simp only [exec, execVisit, if_neg hp, commit_none] at h
      cases h
      exact .inl rfl

/-- A visit moves a class by one step at most, at the sweep's position and at dwell 0 (R30). -/
theorem exec_visit_class {s t : State} (h : exec .visit s = .next t) (i : StreamId) :
    (t.streams.get i).current = (s.streams.get i).current
      ∨ (i = s.sweep.position ∧ (s.streams.get i).dwell = 0
        ∧ ((t.streams.get i).current.val = (s.streams.get i).current.val + 1
          ∨ (t.streams.get i).current.val + 1 = (s.streams.get i).current.val)) := by
  obtain he | he := exec_visit_streams h
  · exact .inl (by rw [he])
  · rw [he, Table.get_set]
    split
    · next hi =>
      subst hi
      exact (visitLaw_class (visit_law _ _)).imp_right fun hm => ⟨rfl, hm⟩
    · exact .inl rfl

/-- Both hardware resets set every class to 0 (R2, R147). -/
theorem heldState_class (s : State) (k : ResetKind) (n : Nat) (i : StreamId) :
    ((heldState s k n).streams.get i).current = 0 := by
  simp [heldState, State.reset, Stream.reset]

/-- Settles O12: of the four commands that may change a class the visit moves it by one step and the resets
set it to 0. -/
theorem classMovesOneStep : Obligations.ClassMovesOneStep := by
  intro c s t i h
  by_cases hc : MayMoveClass c
  · obtain rfl | rfl | rfl | rfl := hc
    case inl => exact (exec_visit_class h i).imp_right fun hm => .inl ⟨rfl, hm⟩
    case inr.inl => exact .inr (.inr (.inl rfl))
    case inr.inr.inl =>
      cases h
      exact .inr (.inr (.inr ⟨.inl rfl, heldState_class ..⟩))
    case inr.inr.inr =>
      cases h
      exact .inr (.inr (.inr ⟨.inr rfl, heldState_class ..⟩))
  · exact .inl (exec_classes hc h i)

end Sys2Proof.Proofs
end

section
/-! SUPPORT. A SETTINGS TABLE-WRITE whose values are in range: what is stored, and the checks on the record as it
would stand (R34, R43, R171). -/

namespace Sys2Proof.Proofs
open Sys2Proof Sys2Proof.Machine Sys2Proof.Laws

/-! ## What is stored -/

theorem setValue_item {v : BitVec 64} {x : BitVec 11} (h : setValue v = some x) : item x.toNat = v := by
  unfold setValue at h
  split at h
  · next hv =>
    cases h
    rw [BitVec.toNat_ofNat, Nat.mod_eq_of_lt hv, item_toNat]
  · cases h

/-- A setting that is stored changes its own item alone, and to the value written (R171). -/
theorem settingsStore_items {d d' : Settings} {f : Nat} {v : BitVec 64} (h : d.store f v = some d') (w : Sweep) :
    f < 16 ∧ settingsItems d' w = (settingsItems d w).set f v := by
  unfold Settings.store at h
  split at h
  case h_17 => cases h
  case h_1 =>
    split at h
    · cases h; simp [settingsItems]
    · cases h
  all_goals
    obtain ⟨x, hx, rfl⟩ := Option.map_eq_some_iff.mp h
    refine ⟨by omega, ?_⟩
  case h_15 | h_16 => simp [settingsItems, setValue_item hx]
  all_goals simp [settingsItems, rangeValue_item hx]

/-- The items of the settings after one of them is stored. -/
theorem settingsStore_seen (w : Sweep) (d : Settings) (f : Nat) (v : BitVec 64) (d' : Settings)
    (h : d.store f v = some d') (n : Nat) :
    (settingsItems d' w)[n]? = if n = f then some v else (settingsItems d w)[n]? := by
  obtain ⟨hf, he⟩ := settingsStore_items h w
  rw [he, List.getElem?_set]
  by_cases hn : f = n
  · subst hn
    simp [settingsItems, show f < 21 by omega]
  · simp [hn, Ne.symm hn]

/-! ## The checks -/

/-- The check of R43 fails when a lane at or above the limit is not CLOSED. -/
theorem closedFrom_eq_false {s : State} {n : Nat} :
    s.closedFrom n = false ↔ ∃ l : LaneId, n ≤ l.val ∧ (s.lanes.get l).state ≠ .closed := by
  simp [State.closedFrom, allLanes]

/-- The settings as they would stand may not be stored over lanes that are in use: the unit size and the units of
a block change only with every lane CLOSED, the lane limit falls only over CLOSED lanes (R43, R171 steps 5 and
6). -/
def LanesForbid (s : State) (d : Settings) : Prop :=
  (d.unitSize ≠ s.settings.unitSize ∨ d.unitsPerBlock ≠ s.settings.unitsPerBlock)
      ∧ (∃ l, (s.lanes.get l).state ≠ .closed)
    ∨ d.laneLimit < s.settings.laneLimit
      ∧ ∃ l : LaneId, d.laneLimit ≤ l.val ∧ (s.lanes.get l).state ≠ .closed

section checks
variable {s : State} {l : List (Byte × BitVec 64)} {d : Settings}
  (hl : (l.map Prod.fst).Nodup) (hv : ∀ p ∈ l, SettingValue p.1.toNat p.2)
  (hd : storeAll Settings.store s.settings l = some d)
include hl hv hd

/-- A SETTINGS write whose fields differ and whose values are in range comes to its last three checks (R171). -/
theorem settingsWrite_inRange : settingsWrite s l =
    if selectsThreshold l ∧ ¬ (d.t1 < d.t2 ∧ d.t2 < d.t3) then (.badValue, s.settings)
    else if (d.unitSize ≠ s.settings.unitSize ∨ d.unitsPerBlock ≠ s.settings.unitsPerBlock)
        ∧ s.closedFrom 0 = false then (.state, s.settings)
    else if d.laneLimit < s.settings.laneLimit ∧ s.closedFrom d.laneLimit = false then (.state, s.settings)
    else (.ok, d) := by
  have hsweep : selectsSweepItem l = false := by
    refine eq_false_of_ne_true fun hs => ?_
    obtain ⟨p, hp, hlo, _⟩ := selectsSweepItem_iff.mp hs
    obtain ⟨y, hy⟩ := Option.isSome_iff_exists.mp ((settingsStore_isSome d _ _).mpr (hv p hp))
    exact absurd (settingsStore_items hy s.sweep).1 (by omega)
  simp only [settingsWrite, hsweep, repeats_eq_false.mpr hl, hd, Bool.false_eq_true, if_false]

/-- Thresholds that would not rise are refused; lawful ones that no field selects still rise (R34, R171 step
4). -/
theorem settingsWrite_thresholds (hs : s.settings.Lawful) (ht : ¬ (d.t1 < d.t2 ∧ d.t2 < d.t3)) :
    settingsWrite s l = (.badValue, s.settings) := by
  have hsel : selectsThreshold l = true := by
    by_contra hsel
    obtain ⟨e1, e2, e3⟩ := storeAll_thresholds (eq_false_of_ne_true hsel) hd
    rw [e1, e2, e3] at ht
    exact ht ((lawful_iff _).mp hs).2
  rw [settingsWrite_inRange hl hv hd, if_pos ⟨hsel, ht⟩]

/-- Settings that the lanes forbid are refused (R43, R171 steps 5 and 6). -/
theorem settingsWrite_state (ht : d.t1 < d.t2 ∧ d.t2 < d.t3) (hf : LanesForbid s d) :
    settingsWrite s l = (.state, s.settings) := by
  rw [settingsWrite_inRange hl hv hd, if_neg fun h => h.2 ht]
  simp only [closedFrom_eq_false, Nat.zero_le, true_and]
  split
  · rfl
  · next hu => rw [if_pos (hf.resolve_left hu)]

/-- Settings that rise and that the lanes allow are stored (R171). -/
theorem settingsWrite_stored (ht : d.t1 < d.t2 ∧ d.t2 < d.t3) (hf : ¬ LanesForbid s d) :
    settingsWrite s l = (.ok, d) := by
  rw [settingsWrite_inRange hl hv hd, if_neg fun h => h.2 ht]
  simp only [closedFrom_eq_false, Nat.zero_le, true_and]
  rw [if_neg fun h => hf (.inl h), if_neg fun h => hf (.inr h)]

end checks

/-- Settles O17: every pair is stored in the record as it would stand, which the checks then refuse or store
whole. -/
theorem settingsWriteStores : Obligations.SettingsWriteStores := by
  intro s id fields rest h hs hl hv
  obtain ⟨d, hd⟩ := Option.isSome_iff_exists.mp ((storeAll_isSome settingsStore_isSome fields s.settings).mpr hv)
  obtain ⟨named, other⟩ := storeAll_seen (see := fun d n => (settingsItems d s.sweep)[n]?)
    (written := fun _ v => some v) (settingsStore_seen s.sweep) hl hd
  have hd' : storeAll Settings.store (s.frontTaken rest).settings fields = some d := hd
  refine ⟨d, named, other, fun ht => ?thresholds, fun ht hf => ?state, fun ht hu hlim => ?stored⟩
  case thresholds => exact exec_settingsWrite h (settingsWrite_thresholds hl hv hd' hs ht)
  case state => exact exec_settingsWrite h (settingsWrite_state hl hv hd' ht hf)
  case stored =>
    refine exec_settingsWrite h (settingsWrite_stored hl hv hd' ht ?_)
    rintro (⟨hch, l, hlane⟩ | ⟨hlt, l, hle, hlane⟩)
    · exact hu.elim (fun ⟨e1, e2⟩ => hch.elim (· e1) (· e2)) fun hall => hlane (hall l)
    · exact hlim.elim (fun hge => absurd hge (Nat.not_le.mpr hlt)) fun hall => hlane (hall l hle)

end Sys2Proof.Proofs
end

section
/-! SUPPORT. The law of the lane maps (R38, R43): what each effect does to the entries and to the lanes they
name. -/

namespace Sys2Proof.Proofs
open Sys2Proof Sys2Proof.Machine

/-! ## A lane that serves a group -/

/-- The lane may stand in the lane map of the group: owned by it, and OPENING or OPEN (R38). -/
def Serves (g : GroupId) (ln : Lane) : Prop :=
  ln.owner = some g ∧ (ln.state = .opening ∨ ln.state = .opened)

/-- The second lane context serves every group that the first one serves. -/
def KeepsService (a b : Lane) : Prop := ∀ g, Serves g a → Serves g b

theorem KeepsService.refl (a : Lane) : KeepsService a a := fun _ h => h

theorem KeepsService.trans {a b c : Lane} (hab : KeepsService a b) (hbc : KeepsService b c) : KeepsService a c :=
  fun g h => hbc g (hab g h)

theorem KeepsService.of_eq {a b : Lane} (ho : b.owner = a.owner) (hs : b.state = a.state) : KeepsService a b :=
  fun _ ⟨h1, h2⟩ => ⟨ho.trans h1, hs ▸ h2⟩

/-- A lane that is neither OPENING nor OPEN serves no group. -/
theorem KeepsService.of_state {a b : Lane} (h1 : a.state ≠ .opening) (h2 : a.state ≠ .opened) : KeepsService a b :=
  fun _ ⟨_, h⟩ => (h.elim h1 h2).elim

/-- Seeking a block may make an OPENING lane OPEN, and nothing else of its service (R92). -/
theorem keepsService_seek (mark : Nat) (ln : Lane) : KeepsService ln (ln.seek mark) := by
  obtain ⟨_, h⟩ | ⟨_, _, h⟩ | ⟨b, rest, _, _, _, _, _, hst⟩ := seek_cases ln mark
  · rw [h]; exact .refl _
  · rw [h]; exact .of_eq rfl rfl
  · rintro g ⟨ho, hs⟩
    refine ⟨by simpa using ho, .inr ?_⟩
    rw [hst]
    split
    · rfl
    · next hne => exact hs.resolve_left hne

theorem keepsService_advanced (per mark : Nat) (ln : Lane) : KeepsService ln (ln.advanced per mark) := by
  unfold Lane.advanced
  split
  · have hdrop : KeepsService ln { ln.dropBlock with blocksCompleted := ln.blocksCompleted + 1 } := .of_eq rfl rfl
    exact hdrop.trans (keepsService_seek mark _)
  · exact .of_eq rfl rfl

/-- What an expiry, a drain or a flush does to the filling unit leaves the owner and the state alone. -/
@[simp] theorem sealOrFlag_service (ln : Lane) (U : Nat) :
    (ln.sealOrFlag U).owner = ln.owner ∧ (ln.sealOrFlag U).state = ln.state := by
  obtain ⟨h, _⟩ | ⟨_, _, h⟩ | ⟨_, _, _, h⟩ := sealOrFlag_cases ln U <;> simp [h]

@[simp] theorem sealWaiting_service (ln : Lane) (U : Nat) :
    (ln.sealWaiting U).owner = ln.owner ∧ (ln.sealWaiting U).state = ln.state := by
  obtain ⟨_, _, _, h⟩ | ⟨_, h⟩ := sealWaiting_cases ln U <;> simp [h]

@[simp] theorem emptied_service (ln : Lane) : ln.emptied.owner = ln.owner ∧ ln.emptied.state = ln.state := by
  unfold Lane.emptied; split <;> simp

/-- The check for drain completion leaves a lane that serves a group alone (R97). -/
theorem keepsService_checked (ln : Lane) : KeepsService ln ln.checked := by
  unfold Lane.checked
  split
  · next h => exact .of_state (by simp [h.1]) (by simp [h.1])
  · exact .refl _

/-- A lane that issues a unit keeps its owner, and its state but for OPENING. -/
theorem keepsService_issued {ln ln' : Lane} {u : SealedUnit} (hp : ln.popReady = some (u, ln')) (b : BlockAddr)
    (again : Bool) (timeout per mark U : Nat) :
    KeepsService ln (((ln'.sent timeout u b again).advanced per mark).sealWaiting U) := by
  obtain ⟨q, f, rfl⟩ := popReady_changes hp
  have hsent : KeepsService ln (Lane.sent timeout u b again { ln with requeued := q, fresh := f }) := .of_eq rfl rfl
  exact (hsent.trans (keepsService_advanced per mark _)).trans (.of_eq (by simp) (by simp))

/-! ## The law after one operation -/

section law
variable {s t : State}

theorem laneMapLaw_iff : s.LaneMapLaw ↔ ∀ (g : GroupId) (c : HeatClass) (l : LaneId),
    (s.groups.get g).laneMap.get c = some l → Serves g (s.lanes.get l) ∧ l.val < s.settings.laneLimit := by
  simp only [State.LaneMapLaw, Serves, and_assoc]

/-- The law stays where every entry stood before and its lane still serves. -/
theorem laneMapLaw_of_entries (hs : s.LaneMapLaw) (hst : t.settings = s.settings)
    (h : ∀ g c l, (t.groups.get g).laneMap.get c = some l →
      (s.groups.get g).laneMap.get c = some l ∧ KeepsService (s.lanes.get l) (t.lanes.get l)) : t.LaneMapLaw := by
  rw [laneMapLaw_iff] at hs ⊢
  intro g c l hl
  obtain ⟨hold, hkeep⟩ := h g c l hl
  obtain ⟨hserves, hlim⟩ := hs g c l hold
  exact ⟨hkeep g hserves, hst ▸ hlim⟩

/-- The law reads the groups, the lanes and the settings alone. -/
theorem laneMapLaw_congr (hs : s.LaneMapLaw)
    (h : t.groups = s.groups ∧ t.lanes = s.lanes ∧ t.settings = s.settings) : t.LaneMapLaw := by
  obtain ⟨hg, hl, hst⟩ := h
  exact laneMapLaw_of_entries hs hst fun g c l he => ⟨hg ▸ he, by rw [hl]; exact .refl _⟩

/-- The law stays when every lane keeps its service. -/
theorem laneMapLaw_lanes (hs : s.LaneMapLaw) (hg : t.groups = s.groups) (hst : t.settings = s.settings)
    (h : ∀ l, KeepsService (s.lanes.get l) (t.lanes.get l)) : t.LaneMapLaw :=
  laneMapLaw_of_entries hs hst fun _ _ l he => ⟨hg ▸ he, h l⟩

/-- The law stays when one lane is replaced by one that keeps its service. -/
theorem laneMapLaw_set {l : LaneId} {ln : Lane} (hs : s.LaneMapLaw)
    (h : t.groups = s.groups ∧ t.settings = s.settings ∧ t.lanes = s.lanes.set l ln)
    (hkeep : KeepsService (s.lanes.get l) ln) : t.LaneMapLaw := by
  obtain ⟨hg, hst, hlanes⟩ := h
  refine laneMapLaw_lanes hs hg hst fun m => ?_
  rw [hlanes, Table.get_set]
  split
  · next e => rw [e]; exact hkeep
  · exact .refl _

/-- An entry that is left once those naming a lane are cleared stood before and names another lane (R45, R46). -/
theorem clearLane_entry {g : Group} {l m : LaneId} {c : HeatClass} :
    (g.clearLane l).laneMap.get c = some m ↔ g.laneMap.get c = some m ∧ m ≠ l := by
  simp only [Group.clearLane, Table.get_map]
  grind

/-- The law stays when the entries that name a lane are cleared, whatever becomes of that lane (R45, R46). -/
theorem laneMapLaw_cleared {l : LaneId} {ln : Lane} (hs : s.LaneMapLaw)
    (h : t.groups = s.groups.map (Group.clearLane l) ∧ t.settings = s.settings ∧ t.lanes = s.lanes.set l ln) :
    t.LaneMapLaw := by
  obtain ⟨hg, hst, hlanes⟩ := h
  refine laneMapLaw_of_entries hs hst fun g c m he => ?_
  rw [hg, Table.get_map, clearLane_entry] at he
  obtain ⟨he, hne⟩ := he
  rw [hlanes, Table.get_set_ne _ _ hne]
  exact ⟨he, .refl _⟩

/-- The transmitter's choice keeps the law: an issue keeps the service of its lane. -/
theorem laneMapLaw_choice (hs : s.LaneMapLaw) : (transmitterChoice s).LaneMapLaw := by
  obtain ⟨h, _⟩ | ⟨r, rest, _, _, h⟩ | ⟨l, _, _, _, _, hi, h⟩ := transmitterChoice_cases s
  · rw [h]; exact hs
  · rw [h]; exact laneMapLaw_congr hs ⟨rfl, rfl, rfl⟩
  · obtain ⟨u, ln', b, hp, hb⟩ := issuable_pop hi
    rw [h]
    exact laneMapLaw_set hs ⟨by simp, by simp, issue_lanes s l hp hb⟩ (keepsService_issued hp _ _ _ _ _ _)

/-- The beginning of a flush keeps the law (R143). -/
theorem laneMapLaw_beginFlush (hs : s.LaneMapLaw) : (beginFlush s).LaneMapLaw := by
  unfold beginFlush
  refine laneMapLaw_choice (laneMapLaw_lanes hs (by simp) (by simp) fun l => ?_)
  exact .of_eq (by simp [Lane.flush]) (by simp [Lane.flush])

end law

/-! ## The claims of a GROUP write -/

section claims
variable (s : State)

@[simp] theorem setLane_self (l : LaneId) : s.setLane l (s.lanes.get l) = s := by simp [State.setLane]

/-- The want check said whole: the flag set, and a WANT created if it was clear (R115). -/
theorem createWant_eq (l : LaneId) (n : Nat) : createWant l n s =
    (s.setLane l { s.lanes.get l with want := true }).createAllB
      (if (s.lanes.get l).want then [] else [.want l n]) := by
  unfold createWant
  dsimp only
  cases hw : (s.lanes.get l).want with
  | true =>
    have hself : ({ s.lanes.get l with want := true } : Lane) = s.lanes.get l := by rw [← hw]
    rw [hself, setLane_self]; rfl
  | false => rfl

/-- Seeking a block said whole: what it makes of the lane, and the WANT it creates (R111, R115). -/
theorem seekBlock_eq (l : LaneId) : seekBlock l s =
    (s.setLane l ((s.lanes.get l).seek s.settings.refillMark)).createAllB
      ((s.lanes.get l).seekWant l s.settings.refillMark) := by
  unfold seekBlock Lane.seek Lane.seekWant
  dsimp only
  by_cases hn : (s.lanes.get l).needsBlock = true
  · simp only [hn, if_true, true_and]
    cases hr : (s.lanes.get l).reserve with
    | nil =>
      dsimp only
      rw [createWant_eq]
      cases (s.lanes.get l).want <;> simp [hr]
    | cons b rest =>
      dsimp only
      split
      · rw [createWant_eq]
        simp only [State.setLane, Table.get_set_self, Table.set_set, Lane.pop, Config.reserveCap]
        cases (s.lanes.get l).want <;> rfl
      · simp [State.createAllB]
  · simp [hn, State.createAllB]

/-- A lane claimed for a group, before it seeks a block (R41, R91). -/
def claimedLane (g : GroupId) (ln : Lane) : Lane := { ln with state := .opening, owner := some g }

theorem claimLane_eq (g : GroupId) (l : LaneId) : claimLane g s l =
    (s.setLane l ((claimedLane g (s.lanes.get l)).seek s.settings.refillMark)).createAllB
      ((claimedLane g (s.lanes.get l)).seekWant l s.settings.refillMark) := by
  unfold claimLane
  rw [seekBlock_eq]
  simp [State.setLane, claimedLane]

/-- Claims of different lanes said whole: each lane claimed seeks its block, in order, and no other lane
changes (R41, R91). -/
theorem claimLanes_eq (g : GroupId) {ls : List LaneId} (hn : ls.Nodup) : ∃ lanes,
    ls.foldl (claimLane g) s = State.createAllB { s with lanes := lanes }
      (ls.flatMap fun l => (claimedLane g (s.lanes.get l)).seekWant l s.settings.refillMark)
    ∧ ∀ m, lanes.get m = if m ∈ ls then (claimedLane g (s.lanes.get m)).seek s.settings.refillMark
        else s.lanes.get m := by
  induction ls generalizing s with
  | nil => exact ⟨s.lanes, rfl, by simp⟩
  | cons l ls ih =>
    rw [List.nodup_cons] at hn
    obtain ⟨hl, hn⟩ := hn
    obtain ⟨lanes, hfold, hget⟩ := ih (claimLane g s l) hn
    have hother : ∀ m ∈ ls, (claimLane g s l).lanes.get m = s.lanes.get m := fun m hm => by
      rw [claimLane_lanes]
      exact Table.get_set_ne _ _ fun e => hl (e ▸ hm)
    refine ⟨lanes, ?_, fun m => ?_⟩
    · have hwants : (ls.flatMap fun m => (claimedLane g ((claimLane g s l).lanes.get m)).seekWant m
          (claimLane g s l).settings.refillMark)
          = ls.flatMap fun m => (claimedLane g (s.lanes.get m)).seekWant m s.settings.refillMark :=
        List.flatMap_congr fun m hm => by rw [hother m hm]; simp
      rw [List.foldl_cons, hfold, hwants, List.flatMap_cons, createAllB_append, claimLane_eq,
        Laws.createAllB_eq (s.setLane l _), Laws.createAllB_eq { s with lanes := lanes }]
      rfl
    · rw [hget]
      by_cases hm : m ∈ ls
      · simp only [hm, if_true, List.mem_cons, or_true, hother m hm]
        simp
      · simp only [hm, if_false, List.mem_cons, or_false, claimLane_lanes, Table.get_set]
        by_cases he : m = l
        · rw [if_pos he, if_pos he, he]; rfl
        · rw [if_neg he, if_neg he]

/-- What passes the check may name its lane (R40). -/
theorem mayName_of_laneCheck {g : GroupId} {l : LaneId} (h : s.laneCheck g l = none) : s.MayName g l := by
  by_contra hn
  rw [laneCheck_fails hn] at h
  cases h

variable {s} {g : GroupId} {fields : List (Byte × BitVec 64)} {d : Group}

/-- A GROUP write that passes its checks said whole: the descriptor stored, the CLOSED lanes it names claimed in
ascending order, and the reply behind their WANTs (R39, R41, R91). -/
theorem storeGroup_stored (hl : (fields.map Prod.fst).Nodup)
    (hd : storeAll Group.store (s.groups.get g) fields = some d)
    (hpass : (namedLanes fields d).findSome? (s.laneCheck g) = none) (a : Admin) : ∃ lanes,
    storeGroup a g fields s = (State.createAllB { s with groups := s.groups.set g d, lanes := lanes }
      ((s.claimed (namedLanes fields d)).flatMap fun l =>
        (claimedLane g (s.lanes.get l)).seekWant l s.settings.refillMark)).reply a .ok
    ∧ ∀ m, lanes.get m = if m ∈ s.claimed (namedLanes fields d) then
        (claimedLane g (s.lanes.get m)).seek s.settings.refillMark else s.lanes.get m := by
  obtain ⟨lanes, hfold, hlanes⟩ := claimLanes_eq { s with groups := s.groups.set g d } g
    (claimed_nodup s (namedLanes fields d))
  refine ⟨lanes, ?_, hlanes⟩
  simp only [storeGroup, repeats_eq_false.mpr hl, hd, hpass, Bool.false_eq_true, if_false]
  rw [hfold]

/-- A GROUP write is refused with a status, or it passes its checks and stores its descriptor (R39). -/
theorem storeGroup_cases (s : State) (a : Admin) (g : GroupId) (fields : List (Byte × BitVec 64)) :
    (∃ st, storeGroup a g fields s = s.reply a st)
      ∨ ∃ d, (fields.map Prod.fst).Nodup ∧ storeAll Group.store (s.groups.get g) fields = some d
        ∧ (namedLanes fields d).findSome? (s.laneCheck g) = none := by
  by_cases hl : (fields.map Prod.fst).Nodup
  · cases hd : storeAll Group.store (s.groups.get g) fields with
    | none => exact .inl ⟨.badValue, by simp [storeGroup, repeats_eq_false.mpr hl, hd]⟩
    | some d =>
      cases hc : (namedLanes fields d).findSome? (s.laneCheck g) with
      | some st => exact .inl ⟨st, by simp [storeGroup, repeats_eq_false.mpr hl, hd, hc]⟩
      | none => exact .inr ⟨d, hl, rfl, hc⟩
  · exact .inl ⟨.badValue, by simp [storeGroup, repeats_eq_true.mpr hl]⟩

end claims

/-! ## The law after the requests, the grants and the results -/

section operations
variable {s : State}

/-- An entry that a stored descriptor has names a lane that passed its check, or stood before. -/
theorem stored_entry {g : GroupId} {fields : List (Byte × BitVec 64)} {d : Group}
    (hl : (fields.map Prod.fst).Nodup) (hd : storeAll Group.store (s.groups.get g) fields = some d)
    {c : HeatClass} {l : LaneId} (he : d.laneMap.get c = some l) :
    l ∈ namedLanes fields d ∨ (s.groups.get g).laneMap.get c = some l := by
  cases hsel : selects fields c.val with
  | true => exact .inl (List.mem_filterMap.mpr ⟨c, List.mem_finRange c, by rw [if_pos hsel]; exact he⟩)
  | false =>
    have hsame := (storeAll_seen groupStore_seen hl hd).2 c.val (selects_eq_false.mp hsel)
    rw [entrySeen_class, entrySeen_class] at hsame
    exact .inr (hsame ▸ he)

/-- A GROUP write keeps the law: an entry it stores names a lane that passed its check, which serves the group
already or is CLOSED and claimed for it, and no entry that stood names a CLOSED lane (R40, R41). -/
theorem laneMapLaw_storeGroup (hs : s.LaneMapLaw) (a : Admin) (g : GroupId) (fields : List (Byte × BitVec 64)) :
    (storeGroup a g fields s).LaneMapLaw := by
  obtain ⟨st, h⟩ | ⟨d, hl, hd, hpass⟩ := storeGroup_cases s a g fields
  · rw [h]; exact laneMapLaw_congr hs (by simp)
  obtain ⟨lanes, h, hlanes⟩ := storeGroup_stored hl hd hpass a
  have hkeep : ∀ l, KeepsService (s.lanes.get l) (lanes.get l) := fun l => by
    rw [hlanes]
    split
    · next hc => exact .of_state (by simp [claimed_closed hc]) (by simp [claimed_closed hc])
    · exact .refl _
  have hclaimed : ∀ l ∈ s.claimed (namedLanes fields d), Serves g (lanes.get l) := fun l hc => by
    rw [hlanes, if_pos hc]
    exact keepsService_seek _ _ g ⟨rfl, .inl rfl⟩
  have hold : ∀ k c l, (s.groups.get k).laneMap.get c = some l →
      Serves k (lanes.get l) ∧ l.val < s.settings.laneLimit := fun k c l he =>
    (laneMapLaw_iff.mp hs k c l he).imp_left (hkeep l k)
  rw [h, laneMapLaw_iff]
  intro k c l he
  simp only [State.reply_groups, State.reply_lanes, State.reply_settings, createAllB_frame, Table.get_set] at he ⊢
  split at he
  · next hk =>
    subst hk
    obtain hnamed | hstood := stored_entry hl hd he
    · obtain ⟨hlim, hclosed | hserves⟩ := mayName_of_laneCheck s (List.findSome?_eq_none_iff.mp hpass l hnamed)
      · refine ⟨hclaimed l (List.mem_filter.mpr ⟨List.mem_finRange l, ?_⟩), hlim⟩
        simp [hnamed, hclosed]
      · exact ⟨hkeep l k hserves, hlim⟩
    · exact hold k c l hstood
  · exact hold k c l he

@[simp] theorem drainLane_groups (l : LaneId) : (drainLane l s).groups = s.groups.map (Group.clearLane l) := by
  simp [drainLane]

/-- A DRAIN request keeps the law: the entries that name the lane are cleared (R45). -/
theorem laneMapLaw_requestDrain (hs : s.LaneMapLaw) (a : Admin) (l : LaneId) : (requestDrain a l s).LaneMapLaw := by
  have hcleared : (drainLane l s).LaneMapLaw := laneMapLaw_cleared hs ⟨by simp, by simp, drainLane_lanes l⟩
  have hdrained : (transmitterChoice ((flushCheck (drainLane l s)).reply a .ok)).LaneMapLaw :=
    laneMapLaw_choice (laneMapLaw_congr hcleared (by simp))
  unfold requestDrain
  split
  · exact hdrained
  · exact hdrained
  all_goals exact laneMapLaw_congr hs (by simp)

/-- FAULT entry keeps the law: the entries that name the lane are cleared (R46). -/
theorem laneMapLaw_faultEntry (hs : s.LaneMapLaw) (l : LaneId) : (faultEntry l s).LaneMapLaw :=
  laneMapLaw_cleared hs ⟨by simp, by simp, faultEntry_lanes s l⟩

/-- The FAULTED handback leaves the lane's owner and state alone (R102). -/
theorem laneMapLaw_faultedHandback (hs : s.LaneMapLaw) (l : LaneId) : (faultedHandback l s).LaneMapLaw :=
  laneMapLaw_set hs ⟨by simp, by simp, faultedHandback_lanes s l⟩ (.of_eq (by simp) (by simp))

theorem laneMapLaw_requestStop (hs : s.LaneMapLaw) (a : Admin) (l : LaneId) : (requestStop a l s).LaneMapLaw := by
  have hstopped : ((flushCheck (faultEntry l s)).reply a .ok).LaneMapLaw :=
    laneMapLaw_congr (laneMapLaw_faultEntry hs l) (by simp)
  unfold requestStop
  split
  · exact hstopped
  · exact hstopped
  · exact hstopped
  all_goals exact laneMapLaw_congr hs (by simp)

theorem laneMapLaw_requestClear (hs : s.LaneMapLaw) (a : Admin) (l : LaneId) : (requestClear a l s).LaneMapLaw := by
  unfold requestClear
  dsimp only
  split
  · next hf =>
    split
    · exact laneMapLaw_congr hs (by simp)
    · split
      · exact laneMapLaw_congr hs (by simp)
      · exact laneMapLaw_set hs ⟨rfl, rfl, rfl⟩ (.of_state (by simp [hf]) (by simp [hf]))
  · exact laneMapLaw_congr hs (by simp)

/-- A GRANT keeps the law: only seeking a block touches a lane's state (R117). -/
theorem laneMapLaw_takeGrant (hs : s.LaneMapLaw) (x : LaneField) (b : BlockAddr) : (takeGrant x b s).LaneMapLaw := by
  unfold takeGrant
  split
  · exact laneMapLaw_congr hs (by simp)
  next l _ =>
  split
  · exact laneMapLaw_congr hs (by simp)
  split
  · exact laneMapLaw_congr hs (by simp)
  split
  · exact laneMapLaw_congr hs (by simp)
  have hgranted : KeepsService (s.lanes.get l)
      { s.lanes.get l with reserve := b :: (s.lanes.get l).reserve, want := false } := .of_eq rfl rfl
  refine laneMapLaw_set (l := l) hs ⟨by simp, by simp, ?_⟩ (hgranted.trans (keepsService_seek s.settings.refillMark _))
  simp [acceptGrant, seekBlock_lanes]

/-- A unit that is settled keeps the law: the lane hands back its block or completes its drain, which a lane that
an entry names does not do. -/
theorem laneMapLaw_settleUnit (hs : s.LaneMapLaw) (ok : Bool) (l : LaneId) (u : Issued) :
    (settleUnit ok l u s).LaneMapLaw := by
  refine laneMapLaw_set hs ⟨by simp, by simp, settleUnit_lanes ok l u⟩ ?_
  split
  · exact .of_eq (by simp) (by simp)
  · exact keepsService_checked _

theorem laneMapLaw_failLane (hs : s.LaneMapLaw) (l : LaneId) (u : Issued) : (failLane l u s).LaneMapLaw := by
  have hsettled : (settleEntries false u.entries s).LaneMapLaw := laneMapLaw_congr hs (by simp)
  exact laneMapLaw_congr (laneMapLaw_faultEntry hsettled l) (by simp [failLane])

theorem laneMapLaw_requeueUnit (hs : s.LaneMapLaw) (l : LaneId) (u : Issued) (n : Nat) :
    (requeueUnit l u n s).LaneMapLaw :=
  laneMapLaw_set hs ⟨rfl, rfl, rfl⟩ (.of_eq rfl rfl)

theorem laneMapLaw_abandonBlock (hs : s.LaneMapLaw) (l : LaneId) (u : Issued) : (abandonBlock l u s).LaneMapLaw := by
  have hdrop : KeepsService (s.lanes.get l) (s.lanes.get l).dropBlock := .of_eq rfl rfl
  exact laneMapLaw_set hs ⟨by simp, by simp, abandonBlock_lanes l u⟩ (hdrop.trans (keepsService_seek _ _))

theorem laneMapLaw_failUnit (hs : s.LaneMapLaw) (l : LaneId) (u : Issued) : (failUnit l u s).LaneMapLaw := by
  unfold failUnit
  dsimp only
  split
  · exact laneMapLaw_settleUnit hs _ _ _
  split
  · exact laneMapLaw_failLane hs _ _
  split
  · exact laneMapLaw_requeueUnit (laneMapLaw_abandonBlock hs _ _) _ _ _
  · exact laneMapLaw_requeueUnit hs _ _ _

theorem laneMapLaw_abortUnit (hs : s.LaneMapLaw) (l : LaneId) (u : Issued) : (abortUnit l u s).LaneMapLaw := by
  unfold abortUnit
  dsimp only
  split
  · exact laneMapLaw_settleUnit hs _ _ _
  split
  · split
    · exact laneMapLaw_failLane hs _ _
    · exact laneMapLaw_requeueUnit (laneMapLaw_abandonBlock hs _ _) _ _ _
  · exact laneMapLaw_requeueUnit hs _ _ _

/-- The expiry of a result timer keeps the law: an OPEN lane enters FAULT, an OPENING one stays (R133). -/
theorem laneMapLaw_timeoutUnit (hs : s.LaneMapLaw) (l : LaneId) (u : Issued) : (timeoutUnit l u s).LaneMapLaw := by
  have hcaptured : (takeCapture .resultTimeout l u
      ((settleEntries false u.entries s).raise .resultTimeout)).LaneMapLaw := laneMapLaw_congr hs (by simp)
  unfold timeoutUnit
  dsimp only
  split
  · exact laneMapLaw_congr (laneMapLaw_faultEntry hcaptured l) (by simp)
  split
  · exact laneMapLaw_congr (laneMapLaw_faultedHandback hcaptured l) (by simp)
  · exact laneMapLaw_congr hcaptured (by simp)

/-- Placing a record's sectors, or counting its refusal, leaves the owner and the state of the lane alone. -/
theorem laneMapLaw_classifyWrite (hs : s.LaneMapLaw) (w : WriteRec) : (classifyWrite w s).LaneMapLaw := by
  have hplaced : ∀ (l : LaneId) (xs : List Sector) (r : TagRecord) (d : Stream),
      State.LaneMapLaw ((placeSectors l xs (s.setFrontTag w.tag r)).setStream w.stream d) := fun l xs r d =>
    laneMapLaw_set (l := l) hs ⟨rfl, rfl, rfl⟩ (.of_eq (by simp) (by simp))
  have hcounted : ∀ l, (countBackoff l s).LaneMapLaw := fun l => laneMapLaw_set hs ⟨rfl, rfl, rfl⟩ (.of_eq rfl rfl)
  unfold classifyWrite
  dsimp only
  split
  · split
    · exact laneMapLaw_congr hs (by simp)
    · next l _ =>
      split
      · exact hplaced l _ _ _
      · exact laneMapLaw_congr (hcounted l) (by simp)
  · exact laneMapLaw_congr hs (by simp)

theorem laneMapLaw_classifyRelocate (hs : s.LaneMapLaw) (x : RelocateRec) : (classifyRelocate x s).LaneMapLaw := by
  have hplaced : ∀ (l : LaneId) (xs : List Sector) (r : TagRecord),
      State.LaneMapLaw (placeSectors l xs (s.setRelocTag x.tag r)) := fun l xs r =>
    laneMapLaw_set (l := l) hs ⟨rfl, rfl, rfl⟩ (.of_eq (by simp) (by simp))
  have hcounted : ∀ l, (countBackoff l s).LaneMapLaw := fun l => laneMapLaw_set hs ⟨rfl, rfl, rfl⟩ (.of_eq rfl rfl)
  unfold classifyRelocate
  dsimp only
  split
  · exact laneMapLaw_congr hs (by simp)
  · next l _ =>
    split
    · exact hplaced l _ _
    · exact laneMapLaw_congr (hcounted l) (by simp)

/-- The settings may lower the lane limit only over CLOSED lanes, which no entry names (R43). -/
theorem laneMapLaw_settings (hs : s.LaneMapLaw) (fields : List (Byte × BitVec 64)) :
    State.LaneMapLaw { s with settings := (settingsWrite s fields).2 } := by
  rw [laneMapLaw_iff] at hs ⊢
  intro g c l he
  obtain ⟨hserves, hlim⟩ := hs g c l he
  refine ⟨hserves, ?_⟩
  have hopen : (s.lanes.get l).state ≠ .closed := fun hc => by
    obtain ⟨_, h | h⟩ := hserves <;> simp [hc] at h
  show l.val < (settingsWrite s fields).2.laneLimit
  unfold settingsWrite
  dsimp only
  split
  · exact hlim
  split
  · exact hlim
  split
  · exact hlim
  next d _ =>
  split
  · exact hlim
  split
  · exact hlim
  split
  · exact hlim
  next hkept =>
    by_contra hge
    have hbelow : d.laneLimit ≤ l.val := Nat.le_of_not_lt hge
    exact hkept ⟨lt_of_le_of_lt hbelow hlim, closedFrom_eq_false.mpr ⟨l, hbelow, hopen⟩⟩

/-- A group without entries names no lane. -/
theorem laneMapLaw_noLanes (h : ∀ g, (s.groups.get g).laneMap = Group.noLanes) : s.LaneMapLaw := by
  intro g c l he
  rw [h] at he
  simp [Group.noLanes] at he

end operations

/-! ## Every step keeps the law -/

section step
variable {s t : State}

/-- Every effect keeps the law of the lane maps. -/
theorem laneMapLaw_effect (h : Effect s t) (hs : s.LaneMapLaw) : t.LaneMapLaw := by
  have htaken : s.takeFront.LaneMapLaw := laneMapLaw_congr hs ⟨rfl, rfl, rfl⟩
  have hserved : (State.countAccess { s with inHand := none }).LaneMapLaw := laneMapLaw_congr hs ⟨rfl, rfl, rfl⟩
  have hresult : ∀ (l : LaneId) (rest : List Issued),
      (s.setLane l { s.lanes.get l with outstanding := rest }).LaneMapLaw := fun l rest =>
    laneMapLaw_set hs ⟨rfl, rfl, rfl⟩ (.of_eq rfl rfl)
  cases h
  case holdupAsserted => exact laneMapLaw_beginFlush (laneMapLaw_congr hs ⟨rfl, rfl, rfl⟩)
  case warningTaken => exact laneMapLaw_beginFlush hs
  case sealAge l h =>
    exact laneMapLaw_choice (laneMapLaw_set (l := l) hs ⟨rfl, rfl, rfl⟩ (.of_eq (by simp) (by simp)))
  case timeout l n u rest h => exact laneMapLaw_timeoutUnit (hresult l rest) l u
  case residency l h => exact laneMapLaw_set hs ⟨rfl, rfl, rfl⟩ (.of_eq rfl rfl)
  case writeClassified w h hm hp => exact laneMapLaw_choice (laneMapLaw_classifyWrite hserved w)
  case relocClassified x h hm hp => exact laneMapLaw_choice (laneMapLaw_classifyRelocate hserved x)
  case groupWrite a g fields h => exact laneMapLaw_choice (laneMapLaw_storeGroup htaken a g fields)
  case settingsWrite a fields h => exact laneMapLaw_congr (laneMapLaw_settings htaken fields) (by simp)
  case drain a l h => exact laneMapLaw_requestDrain htaken a l
  case stop a l h => exact laneMapLaw_requestStop htaken a l
  case clear a l h => exact laneMapLaw_requestClear htaken a l
  case softReset a h => exact laneMapLaw_noLanes fun g => by simp [softResetState]
  case resultOk l u rest b i hl h => exact laneMapLaw_choice (laneMapLaw_settleUnit (hresult l rest) true l u)
  case resultFail l u rest b i hl h =>
    exact laneMapLaw_choice (laneMapLaw_failUnit (laneMapLaw_congr (hresult l rest) (by simp)) l u)
  case resultAborted l u rest b i hl h => exact laneMapLaw_choice (laneMapLaw_abortUnit (hresult l rest) l u)
  case grant x b => exact laneMapLaw_choice (laneMapLaw_takeGrant hs x b)
  case holdOffFree h hp => exact laneMapLaw_choice (laneMapLaw_congr hs ⟨rfl, rfl, rfl⟩)
  case bSendEnd r h => exact laneMapLaw_choice (laneMapLaw_congr hs (by simp))
  all_goals exact laneMapLaw_congr hs (by simp)

theorem laneMapLaw_after (h : After s t) (hs : s.LaneMapLaw) : t.LaneMapLaw := by
  refine after_keeps (I := State.LaneMapLaw) ?latch ?held ?input ?flush ?effect s t h hs
  case latch => exact fun s hs => laneMapLaw_congr hs ⟨rfl, rfl, rfl⟩
  case held => exact fun s k n _ _ => laneMapLaw_noLanes fun g => by simp [heldState, State.reset, Group.reset]
  case input => exact fun s r w p hs => laneMapLaw_congr hs ⟨rfl, rfl, rfl⟩
  case flush => exact fun s hs => laneMapLaw_beginFlush hs
  case effect => exact fun s t h hs => laneMapLaw_effect h hs

end step

/-- Settles O53: an entry stands only while its lane keeps its service, is cleared where the lane loses it, and is
stored only over a lane that gains it. -/
theorem laneMapKept : Obligations.LaneMapKept := by
  intro s t hs h
  refine step_keeps (I := State.LaneMapLaw) ?queue ?draw (fun _ _ => laneMapLaw_after) ?tick hs h
  case queue => exact fun s q hs => laneMapLaw_congr hs ⟨rfl, rfl, rfl⟩
  case draw => exact fun s n hs => laneMapLaw_congr hs ⟨rfl, rfl, rfl⟩
  case tick =>
    exact fun s hs => laneMapLaw_lanes hs rfl rfl fun l =>
      .of_eq (by simp [msTick, Lane.tick]) (by simp [msTick, Lane.tick])

end Sys2Proof.Proofs
end

section
/-! SUPPORT. An accepted GROUP write: what it stores and which lanes it claims (R39, R41, R91). -/

namespace Sys2Proof.Proofs
open Sys2Proof Sys2Proof.Machine Sys2Proof.Laws

/-! ## What a GROUP write stores -/

/-- The fallback order that a value stores is the one whose code it is (R39, R173). -/
theorem groupStore_fallback {d d' : Group} {v : BitVec 64} (h : d.store 4 v = some d') :
    ∃ o, d' = { d with fallback := o } ∧ v = item (fallbackCode o) := by
  simp only [Group.store, fieldBelow_none.mpr (le_refl 4), if_true] at h
  split at h
  · next hv => cases h; exact ⟨.colderFirst, rfl, BitVec.eq_of_toNat_eq hv⟩
  · split at h
    · next hv => cases h; exact ⟨.hotterFirst, rfl, BitVec.eq_of_toNat_eq hv⟩
    · cases h

theorem groupStore_sealAge {d d' : Group} {v : BitVec 64} (h : d.store 5 v = some d') :
    ∃ n, d' = { d with sealAge := n } ∧ v = item n := by
  obtain ⟨n, hn, rfl⟩ := Option.map_eq_some_iff.mp (show (rangeValue 0 1000 v).map _ = some d' from h)
  exact ⟨n, rfl, (rangeValue_item hn).symm⟩

/-- A field of a group descriptor that is stored changes its own item alone (R39, R48). -/
theorem groupStore_items {d d' : Group} {f : Nat} {v : BitVec 64} (h : d.store f v = some d') :
    f < 6 ∧ groupItems d' = (groupItems d).set f v := by
  have hsize : (d.laneMap.items.map fun e => optItem (e.map Fin.val)).length = 4 := by simp [d.laneMap.size]
  obtain ⟨c, rfl⟩ | rfl | rfl | hf := groupField_cases f
  · rw [groupStore_entry] at h
    obtain ⟨e, he, rfl⟩ := Option.map_eq_some_iff.mp h
    refine ⟨by omega, ?_⟩
    simp only [groupItems, Table.set, List.map_set, optValue_item he]
    rw [List.set_append_left _ _ (by rw [hsize]; exact c.isLt)]
  · obtain ⟨o, rfl, rfl⟩ := groupStore_fallback h
    simp [groupItems, List.set_append_right, hsize]
  · obtain ⟨n, rfl, rfl⟩ := groupStore_sealAge h
    simp [groupItems, List.set_append_right, hsize]
  · rw [groupStore_above d hf] at h; cases h

/-- The items of a group descriptor after one field is stored. -/
theorem groupStore_seenItems (d : Group) (f : Nat) (v : BitVec 64) (d' : Group) (h : d.store f v = some d')
    (n : Nat) : (groupItems d')[n]? = if n = f then some v else (groupItems d)[n]? := by
  obtain ⟨hf, he⟩ := groupStore_items h
  rw [he, List.getElem?_set]
  by_cases hn : f = n
  · subst hn
    simp [groupItems, d.laneMap.size, hf]
  · simp [hn, Ne.symm hn]

/-! ## What a GROUP write claims -/

/-- A CLOSED lane holds no block, so that its claim only sets its want flag and creates a WANT for 8 (R91, R115). -/
theorem claimedLane_closed {ln : Lane} (h : ln.StateLaw) (hc : ln.state = .closed) (g : GroupId) (l : LaneId)
    (mark : Nat) : (claimedLane g ln).seekWant l mark = [.want l 8]
      ∧ (claimedLane g ln).seek mark = { ln with state := .opening, owner := some g, want := true } := by
  simp only [Lane.StateLaw, hc] at h
  obtain ⟨_, _, _, _, hcurrent, hreserve, hwant, _⟩ := h
  constructor
  · simp [Lane.seekWant, Lane.needsBlock, claimedLane, hcurrent, hreserve, hwant]
  · simp [Lane.seek, Lane.needsBlock, claimedLane, hcurrent, hreserve]

/-- The lanes that a write claims, in the words of the claims. -/
theorem claimed_eq (s : State) (named : List LaneId) : s.claimed named =
    (List.finRange 48).filter fun l => decide (l ∈ named) && (s.lanes.get l).state == .closed := by
  simp [State.claimed, allLanes]

theorem mem_claimed {s : State} {named : List LaneId} {l : LaneId} :
    l ∈ s.claimed named ↔ l ∈ named ∧ (s.lanes.get l).state = .closed := by
  simp [State.claimed, allLanes]

/-- Settles O16: the descriptor is stored field by field, and each CLOSED lane it names holds no block when it is
claimed. -/
theorem groupWriteClaims : Obligations.GroupWriteClaims := by
  intro s id index fields g rest h hg hlaw hl hv hname
  obtain ⟨d, hd⟩ := Option.isSome_iff_exists.mp
    ((storeAll_isSome groupStore_isSome fields (s.groups.get g)).mpr hv)
  obtain ⟨named, other⟩ := storeAll_seen (see := fun d n => (groupItems d)[n]?) (written := fun _ v => some v)
    groupStore_seenItems hl hd
  have hpass : (namedLanes fields d).findSome? ((s.frontTaken rest).laneCheck g) = none := by
    rw [namedLanes_eq hl hd]
    exact List.findSome?_eq_none_iff.mpr fun l hm => laneCheck_passes (hname l hm)
  obtain ⟨lanes, hstored, hlanes⟩ := storeGroup_stored (s := s.frontTaken rest) hl hd hpass
    ⟨id, .tableWrite 2 index fields⟩
  rw [namedLanes_eq hl hd] at hstored hlanes
  refine ⟨d, lanes, ?stored, named, other, fun l => ?lane⟩
  case stored =>
    have hwants : ((s.frontTaken rest).claimed (namedBy fields)).flatMap (fun l =>
          (claimedLane g ((s.frontTaken rest).lanes.get l)).seekWant l (s.frontTaken rest).settings.refillMark)
        = ((s.frontTaken rest).claimed (namedBy fields)).map fun l => .want l 8 := by
      rw [List.map_eq_flatMap]
      exact List.flatMap_congr fun l hm => (claimedLane_closed (hlaw l) (mem_claimed.mp hm).2 g l _).1
    rw [exec_groupWrite h hg, hstored, hwants, claimed_eq]
    rfl
  case lane =>
    have hclaimed : l ∈ (s.frontTaken rest).claimed (namedBy fields)
        ↔ l ∈ namedBy fields ∧ (s.lanes.get l).state = .closed := mem_claimed
    rw [hlanes]
    by_cases hm : l ∈ namedBy fields ∧ (s.lanes.get l).state = .closed
    · rw [if_pos (hclaimed.mpr hm), if_pos hm]
      exact (claimedLane_closed (hlaw l) hm.2 g l _).2
    · rw [if_neg (mt hclaimed.mp hm), if_neg hm]
      rfl

end Sys2Proof.Proofs
end

section
/-! SUPPORT. The reads of GROUP, SETTINGS, FRONT-TAG, RELOC-TAG and RESET-CAUSE, and the fallback search (R37, R48,
R64, R150, R167, R170). -/

namespace Sys2Proof.Proofs
open Sys2Proof Sys2Proof.Machine Sys2Proof.Laws

/-! ## The reads -/

/-- A TABLE-READ that is next and names the table is answered BAD-INDEX, or OK with the record (R167). -/
theorem exec_read {s : State} {id index : BitVec 16} {rest : List FrontRec} {code : Byte} {c : Instr}
    {t : TableName} {look : State → Nat → ReplyData}
    (h : s.FrontIsNext (.admin ⟨id, .tableRead code index⟩) rest) (hc : exec c s = commit s (readTable s t look))
    (ht : tableOfCode code = some t) :
    (tableSize t ≤ index.toNat → exec c s =
        .next (State.latchLevels ((s.frontTaken rest).createF (.adminReply id .badIndex .none))))
      ∧ (index.toNat < tableSize t → exec c s = .next (State.latchLevels ((s.frontTaken rest).createF
        (.adminReply id .ok (look (s.frontTaken rest) index.toNat))))) := by
  rw [hc, readTable, onAdmin_next h]
  simp only [ht, if_true]
  rw [commit_some h.1]
  constructor
  · intro hi; rw [if_neg (by omega)]; rfl
  · intro hi; rw [if_pos hi]; rfl

/-- Settles O19: each of the five tables is read by the one rule, from the state that has taken the request. -/
theorem tableReads : Obligations.TableReads := by
  intro s id index rest code c size hmem h
  simp only [List.mem_cons, Prod.mk.injEq, List.not_mem_nil, or_false] at hmem
  obtain ⟨rfl, rfl, rfl⟩ | ⟨rfl, rfl, rfl⟩ | ⟨rfl, rfl, rfl⟩ | ⟨rfl, rfl, rfl⟩ | ⟨rfl, rfl, rfl⟩ := hmem
  case inl =>
    obtain ⟨hbad, hok⟩ := exec_read (c := .groupTableRead) (t := .group) (look := lookGroup) h rfl rfl
    refine ⟨hbad, fun hi => ⟨_, hok hi, fun _ g hg => ?_, by simp, by simp, by simp, by simp⟩⟩
    simp only [lookGroup, groupOf, fieldBelow_some.mpr hg.symm]
    rfl
  case inr.inl =>
    obtain ⟨hbad, hok⟩ := exec_read (c := .settingsTableRead) (t := .settings) (look := lookSettings) h rfl rfl
    exact ⟨hbad, fun hi => ⟨_, hok hi, by simp, fun _ => rfl, by simp, by simp, by simp⟩⟩
  case inr.inr.inl =>
    obtain ⟨hbad, hok⟩ := exec_read (c := .frontTagTableRead) (t := .frontTag) (look := lookFrontTag) h rfl rfl
    refine ⟨hbad, fun hi => ⟨_, hok hi, by simp, by simp, fun _ t ht => ?_, by simp, by simp⟩⟩
    simp only [lookFrontTag, fieldBelow_some.mpr ht.symm]
    rfl
  case inr.inr.inr.inl =>
    obtain ⟨hbad, hok⟩ := exec_read (c := .relocTagTableRead) (t := .relocTag) (look := lookRelocTag) h rfl rfl
    refine ⟨hbad, fun hi => ⟨_, hok hi, by simp, by simp, by simp, fun _ t ht => ?_, by simp⟩⟩
    simp only [lookRelocTag, fieldBelow_some.mpr ht.symm]
    rfl
  case inr.inr.inr.inr =>
    obtain ⟨hbad, hok⟩ := exec_read (c := .resetCauseTableRead) (t := .resetCause) (look := lookResetCause) h rfl rfl
    exact ⟨hbad, fun hi => ⟨_, hok hi, by simp, by simp, by simp, by simp, fun _ => rfl⟩⟩

end Sys2Proof.Proofs
end

section
/-! SUPPORT. The fallback search (R37). -/

namespace Sys2Proof.Proofs
open Sys2Proof Sys2Proof.Machine

/-- Class `k` is searched before class `c` from the wanted class: the classes from the wanted one in the order's
own direction, then those in the other direction (R37). -/
def searchedBefore (f : Fallback) (wanted k c : HeatClass) : Bool :=
  match f with
  | .colderFirst => if c ≤ wanted then decide (c < k ∧ k ≤ wanted) else decide (k ≤ wanted ∨ k < c)
  | .hotterFirst => if wanted ≤ c then decide (wanted ≤ k ∧ k < c) else decide (wanted ≤ k ∨ c < k)

/-- The search looks at every class, each behind those that are searched before it. -/
theorem searchOrder_sorted (f : Fallback) (wanted : HeatClass) :
    (∀ c, c ∈ searchOrder f wanted)
      ∧ (searchOrder f wanted).Pairwise fun k c => searchedBefore f wanted k c = true
        ∧ searchedBefore f wanted c k = false := by
  cases f <;> decide +revert

theorem searchedBefore_irrefl (f : Fallback) (wanted c : HeatClass) : searchedBefore f wanted c c = false := by
  cases f <;> decide +revert

/-- In a list that stands in an order, the first success is the one behind failures alone. -/
theorem findSome_first {α β : Type} {before : α → α → Bool} (irrefl : ∀ a, before a a = false) {f : α → Option β}
    {b : β} {l : List α} (h : l.Pairwise fun x y => before x y = true ∧ before y x = false) :
    l.findSome? f = some b ↔ ∃ c ∈ l, f c = some b ∧ ∀ k ∈ l, before k c = true → f k = none := by
  induction l with
  | nil => simp
  | cons a l ih =>
    rw [List.pairwise_cons] at h
    obtain ⟨ha, hl⟩ := h
    rw [List.findSome?_cons]
    cases hfa : f a with
    | none => simp only [ih hl]; grind
    | some x => grind

/-- Settles O26: the order of the search lists every class, each behind those searched before it. -/
theorem fallbackSearch : Obligations.FallbackSearch := by
  intro g wanted
  obtain ⟨hall, hsorted⟩ := searchOrder_sorted g.fallback wanted
  refine ⟨?_, fun l => ?_⟩
  · simp [Group.search, hall]
  · rw [Group.search, findSome_first (searchedBefore_irrefl g.fallback wanted) hsorted]
    cases hf : g.fallback <;> grind [searchedBefore]

end Sys2Proof.Proofs
end

section
/-! SUPPORT. The lane requests DRAIN and STOP, and FAULT entry said whole (R45, R46, R80, R94, R95, R97, R99, R100,
R102). -/

namespace Sys2Proof.Proofs
open Sys2Proof Sys2Proof.Machine Sys2Proof.Laws

/-! ## What the requests share -/

/-- A LANE-REQUEST that is next and names a lane runs on that lane, in the state that has taken it (R94). -/
theorem exec_laneRequest {s : State} {id : BitVec 16} {lane : LaneField} {act : LaneAction} {l : LaneId}
    {rest : List FrontRec} {c : Instr} {f : Admin → LaneId → State → State}
    (h : s.FrontIsNext (.admin ⟨id, .laneRequest lane act⟩) rest) (hl : lane.val = l.val)
    (hc : exec c s = commit s (onLaneRequest s act f)) :
    exec c s = .next (State.latchLevels (f ⟨id, .laneRequest lane act⟩ l (s.frontTaken rest))) := by
  rw [hc, onLaneRequest_next h, lane_of_field hl, commit_some h.1]

/-- A group once the entries that name a lane are cleared: those entries are absent, and nothing else changes
(R45, R46). -/
theorem clearLane_spec (g : Group) (l : LaneId) :
    (g.clearLane l).fallback = g.fallback ∧ (g.clearLane l).sealAge = g.sealAge
      ∧ ∀ c, (g.clearLane l).laneMap.get c = if g.laneMap.get c = some l then none else g.laneMap.get c :=
  ⟨rfl, rfl, fun c => by simp [Group.clearLane]⟩

/-- While a lane holds work no flush completes (R145). -/
theorem flushCheck_of_work {s : State} {l : LaneId} (h : (s.lanes.get l).holdsWork = true) : flushCheck s = s := by
  have hwork : s.workHeld = true := Table.any_items.mpr ⟨l, h⟩
  simp [flushCheck, hwork]

/-! ## DRAIN -/

section drain
variable (s : State) (l : LaneId)

/-- A lane as its drain leaves its filling unit: sealed, flagged or left, the timer stopped (R80, R95). -/
def drainingLane (U : Nat) (ln : Lane) : Lane :=
  { Lane.sealOrFlag U { ln with state := .draining } with sealAge := none }

theorem drainingLane_eq (U : Nat) (ln : Lane) : drainingLane U ln =
    { (if ln.filling = [] then ln
       else if ln.ready.length < 4 then ln.sealFilling U
       else if ln.filling.length < U then { ln with sealPending := true }
       else ln) with state := .draining, sealAge := none } := by
  have hready : Lane.ready { ln with state := .draining } = ln.ready := rfl
  unfold drainingLane Lane.sealOrFlag
  rw [readyCount_eq, hready]
  dsimp only
  split_ifs <;> rfl

/-- Sealing or flagging the filling unit neither adds nor ends work (R80). -/
theorem drainingLane_holdsWork (U : Nat) (ln : Lane) : (drainingLane U ln).holdsWork = ln.holdsWork := by
  rw [drainingLane_eq]
  split_ifs with hf hr
  · rfl
  · simp [Lane.holdsWork, Lane.sealFilling, List.isEmpty_eq_false_iff.mpr hf]
  · rfl
  · rfl

theorem drainLane_eq : drainLane l s =
    checkDrain l ((s.clearMaps l).setLane l (drainingLane s.settings.unitSize (s.lanes.get l))) := rfl

/-- A drain of a lane that holds work leaves the lane DRAINING (R95). -/
theorem drainLane_of_work (h : (s.lanes.get l).holdsWork = true) : drainLane l s =
    (s.clearMaps l).setLane l (drainingLane s.settings.unitSize (s.lanes.get l)) := by
  rw [drainLane_eq, checkDrain]
  simp [drainingLane_holdsWork, h]

/-- A drain of a lane that holds no work is complete at once (R95, R97). -/
theorem drainLane_of_idle (h : (s.lanes.get l).holdsWork = false) : drainLane l s =
    ((s.clearMaps l).setLane l (drainingLane s.settings.unitSize (s.lanes.get l)).drained).createAllB
      ((drainingLane s.settings.unitSize (s.lanes.get l)).drainGivebacks l) := by
  have hstate : (drainingLane s.settings.unitSize (s.lanes.get l)).state = .draining := by rw [drainingLane_eq]
  rw [drainLane_eq, checkDrain]
  simp only [State.setLane_lanes, Table.get_set_self, drainingLane_holdsWork, hstate, h, and_self, if_true]
  rw [completeDrain_eq]
  simp [State.setLane]

/-- A lane without work that has been drained is CLOSED, its blocks gone (R97). -/
theorem drained_of_idle {ln : Lane} (h : ln.holdsWork = false) (U : Nat) : (drainingLane U ln).drained = { ln with
    state := .closed, owner := none, want := false, current := none, nextIndex := 0, reserve := []
    sealAge := none } := by
  have hfilling : ln.filling = [] := by simp [Lane.holdsWork] at h; exact h.1.1.1
  rw [drainingLane_eq, if_pos hfilling]
  rfl

/-- The handbacks of a lane without work: the current block PARTIAL or UNUSED, then the reserve stack UNUSED
(R97). -/
theorem drainGivebacks_of_idle {ln : Lane} (h : ln.holdsWork = false) (U : Nat) :
    (drainingLane U ln).drainGivebacks l =
      (match ln.current with
        | some k => [.giveback (LaneId.field l) k (if ln.nextIndex = 0 then .unused else .partlyUsed)
            (if ln.nextIndex = 0 then none else some ln.nextIndex)]
        | none => [])
        ++ ln.reserve.map fun b => .giveback (LaneId.field l) b .unused none := by
  have hfilling : ln.filling = [] := by simp [Lane.holdsWork] at h; exact h.1.1.1
  rw [drainingLane_eq, if_pos hfilling]
  unfold Lane.drainGivebacks
  cases hc : ln.current with
  | none => rfl
  | some b => by_cases hn : ln.nextIndex = 0 <;> simp [hn]

end drain

/-- Settles O33: the states that refuse or answer at once, then a drain that waits for the lane's work and one
that is complete in the same step. -/
theorem drain : Obligations.Drain := by
  rintro s _ id l _ rest lane h hl rfl rfl
  have hexec := exec_laneRequest (c := .drain) (f := requestDrain) h hl rfl
  have hlane : (s.frontTaken rest).lanes.get l = s.lanes.get l := rfl
  refine ⟨fun hst => ?draining, fun hst => ?refused, fun hst =>
    ⟨s.groups.map (Group.clearLane l), fun g => ?groups, fun hw => ?works, fun hw => ?idle⟩⟩
  case draining => simp only [hexec, requestDrain, hlane, hst]; rfl
  case refused => obtain hst | hst := hst <;> simp only [hexec, requestDrain, hlane, hst] <;> rfl
  case groups => rw [Table.get_map]; exact clearLane_spec _ l
  all_goals
    have hdrain : requestDrain ⟨id, .laneRequest lane .drain⟩ l (s.frontTaken rest) = transmitterChoice
        (State.reply (flushCheck (drainLane l (s.frontTaken rest))) ⟨id, .laneRequest lane .drain⟩ .ok) := by
      obtain hst | hst := hst <;> simp only [requestDrain, hlane, hst]
  case works =>
    rw [hexec, hdrain, drainLane_of_work (s.frontTaken rest) l hw, flushCheck_of_work (l := l), drainingLane_eq]
    · rfl
    · simpa [drainingLane_holdsWork, hlane] using hw
  case idle =>
    rw [hexec, hdrain, drainLane_of_idle (s.frontTaken rest) l hw]
    simp only [hlane]
    rw [drained_of_idle hw, drainGivebacks_of_idle l hw, field_of_lane hl]
    rfl

/-! ## STOP and FAULT entry -/

section faultEntry
variable (s : State) (l : LaneId)

/-- Replacing a lane commutes with the creation of records. -/
theorem setLane_createAllB (rs : List BRecord) (ln : Lane) :
    (s.createAllB rs).setLane l ln = (s.setLane l ln).createAllB rs := by
  rw [Laws.createAllB_eq, Laws.createAllB_eq]
  rfl

/-- Replacing a lane commutes with the settling of entries. -/
theorem setLane_settleEntries (ok : Bool) (es : List Entry) (ln : Lane) :
    (settleEntries ok es s).setLane l ln = settleEntries ok es (s.setLane l ln) := by
  rw [settleEntries_comm ok es (s := s) (s' := s.setLane l ln) rfl]
  conv_lhs => rw [settleEntries_into ok es s]
  rfl

/-- The FAULTED handback said whole: the block dropped and handed back where nothing is outstanding (R102). -/
theorem faultedHandback_eq : faultedHandback l s = (s.setLane l (s.lanes.get l).emptied).createAllB
    (if (s.lanes.get l).outstanding = [] then
      (s.lanes.get l).current.toList.map fun b => .giveback (LaneId.field l) b .faulted none
    else []) := by
  unfold faultedHandback Lane.emptied
  dsimp only
  by_cases ho : (s.lanes.get l).outstanding = []
  · cases hc : (s.lanes.get l).current with
    | none => simp [ho, setLane_self]
    | some b => simp [ho, State.giveback, Laws.createB_eq]
  · simp [ho, setLane_self]

/-- FAULT entry said whole (R100). -/
theorem faultEntry_eq : faultEntry l s = State.createAllB
    (settleEntries false (s.lanes.get l).discards
      ((s.clearMaps l).setLane l ((s.lanes.get l).faulted s.settings.faultResidency)))
    (((s.lanes.get l).reserve.map fun b => .giveback (LaneId.field l) b .unused none)
      ++ if (s.lanes.get l).outstanding = [] then
          (s.lanes.get l).current.toList.map fun b => .giveback (LaneId.field l) b .faulted none
        else []) := by
  unfold faultEntry
  dsimp only
  rw [faultedHandback_eq, givebackAll_eq, setLane_createAllB, setLane_settleEntries, createAllB_createAllB]
  simp [State.setLane, Lane.faulted]

/-- A lane that has entered FAULT, field by field: its current block is gone where nothing is outstanding (R100,
R102). -/
theorem faulted_eq (n : Nat) (ln : Lane) : ln.faulted n = { ln with
    state := .fault, sealAge := none, sealPending := false, requeued := [], fresh := [], filling := [], reserve := []
    residency := .running n
    current := if ln.outstanding = [] then none else ln.current
    nextIndex := if ln.outstanding = [] ∧ ln.current ≠ none then 0 else ln.nextIndex } := by
  unfold Lane.faulted Lane.emptied
  by_cases ho : ln.outstanding = []
  · cases hc : ln.current with
    | none => simp [ho]
    | some b => simp [ho, Lane.dropBlock]
  · simp [ho]

end faultEntry

/-- Settles O34: FAULT entry as its equation, and STOP as FAULT entry from the states that allow it. -/
theorem stopAndFaultEntry : Obligations.StopAndFaultEntry := by
  rintro s l _ rfl
  refine ⟨⟨s.groups.map (Group.clearLane l), fun g => ?groups, ?entry⟩, fun id rest lane h hl => ?stop⟩
  case groups => rw [Table.get_map]; exact clearLane_spec _ l
  case entry => rw [faultEntry_eq, faulted_eq]; rfl
  case stop =>
    have hexec := exec_laneRequest (c := .stop) (f := requestStop) h hl rfl
    have hlane : (s.frontTaken rest).lanes.get l = s.lanes.get l := rfl
    constructor
    · rintro (hst | hst | hst) <;> simp only [hexec, requestStop, hlane, hst] <;> rfl
    · rintro (hst | hst) <;> simp only [hexec, requestStop, hlane, hst] <;> rfl

end Sys2Proof.Proofs
end

section
/-! SUPPORT. The state after reset: no lane holds anything, no tag is in use, and every setting has its default
(R2, R36, R62, R70, R170). -/

namespace Sys2Proof.Proofs
open Sys2Proof Sys2Proof.Machine

/-! ## The records after reset -/

@[simp] theorem reset_stream (i : StreamId) : State.reset.streams.get i = Stream.reset := Table.get_replicate _ _
@[simp] theorem reset_group (g : GroupId) : State.reset.groups.get g = Group.reset := Table.get_replicate _ _
@[simp] theorem reset_lane (l : LaneId) : State.reset.lanes.get l = Lane.reset := Table.get_replicate _ _
@[simp] theorem reset_frontTag (t : FrontTag) : State.reset.frontTags.get t = TagRecord.reset :=
  Table.get_replicate _ _
@[simp] theorem reset_relocTag (t : RelocTag) : State.reset.relocTags.get t = TagRecord.reset :=
  Table.get_replicate _ _

/-- What no lane holds after reset, all lanes together do not hold. -/
theorem reset_flatMap {α : Type} {f : Lane → List α} (h : f Lane.reset = []) :
    State.reset.lanes.items.flatMap f = [] := by
  rw [List.flatMap_eq_nil_iff]
  intro ln hln
  obtain ⟨l, rfl⟩ := Table.mem_items.mp hln
  rw [reset_lane, h]

@[simp] theorem reset_sectors : State.reset.sectors = [] := reset_flatMap rfl
@[simp] theorem reset_blocks : State.reset.blocks = [] := reset_flatMap rfl

/-! ## The laws after reset -/

theorem reset_settings_lawful : State.reset.settings.Lawful := by
  simp [State.reset, Settings.reset, Settings.Lawful]

theorem reset_laneMapLaw : State.reset.LaneMapLaw :=
  laneMapLaw_noLanes fun g => by simp [Group.reset]

/-- A lane after reset is CLOSED and empty, and no unit waits in it (R70, R88). -/
theorem reset_laneLaw : State.reset.LaneLaw := fun l => by
  rw [reset_lane]
  refine ⟨?state, ?wait, ?unit⟩
  case state => simp [Lane.StateLaw, Lane.reset, Lane.ready]
  case wait => simp [Lane.WaitLaw, Lane.reset, Lane.ready, State.reset, Settings.reset]
  case unit => simp [Lane.UnitLaw, Lane.reset, Lane.ready]

/-- After reset every tag is free, and no record is in hand or waits (R62). -/
theorem reset_tagLaw : State.reset.TagLaw := by
  refine ⟨fun t => ?front, fun t => ?reloc, ?write, ?relocate, ?frontQueue, ?relocQueue⟩
  case front => simp [TagRecord.reset]
  case reloc => simp [TagRecord.reset]
  case write | relocate => exact fun _ h => by cases h
  case frontQueue | relocQueue => exact fun _ h => by cases h

/-- After reset no level source is live. -/
theorem reset_latchLaw : State.reset.LatchLaw := by
  rintro - x (⟨_, l, h⟩ | ⟨_, l, h⟩ | ⟨_, h⟩)
  · simp [Lane.reset] at h
  · simp [Lane.reset] at h
  · cases h

/-- Settles O60: each law read off the records after reset. -/
theorem resetIsLawful : Obligations.ResetIsLawful := by
  refine ⟨?queue, ?fhold, ?count, reset_settings_lawful, ?heat, reset_laneMapLaw, reset_laneLaw, ?ready, ?owner,
    ?index, ?block, reset_tagLaw, ?flushed, ?transmit, reset_latchLaw⟩
  case queue => simp [State.QueueLaw, State.reset]
  case fhold => simp [State.FholdLaw, State.reset]
  case count => exact ⟨Nat.zero_le _, Nat.zero_le _, Nat.zero_le _, Nat.zero_le _, fun l => by simp [Lane.reset]⟩
  case heat => exact fun i => by simp [Stream.reset]
  case ready => exact fun l => by simp [Lane.ReadyLaw, Lane.ready, Lane.reset]
  case owner => exact fun l x hx => by rw [reset_lane] at hx; cases hx
  case index => exact fun l => by simp [Lane.reset, State.reset, Settings.reset]
  case block => exact ⟨by simp, fun l => by simp [Lane.reset]⟩
  case flushed => exact fun hm => by cases hm
  case transmit =>
    exact ⟨fun _ => rfl, fun _ => ⟨rfl, fun _ l => by simp [Lane.Issuable, Lane.ready, Lane.reset]⟩⟩

end Sys2Proof.Proofs
end

section
/-! SUPPORT. Settling entries (R62, R135, R136): what a run of entries leaves of the tag records and which answers it
creates, for front and relocation tags alike. -/

namespace Sys2Proof.Proofs
open Sys2Proof Sys2Proof.Machine

/-! ## The record of a tag -/

/-- The record of a tag, in the table of its source (R62, R69). -/
def tagOf (s : State) : TagRef → TagRecord
  | .front i => s.frontTags.get i
  | .reloc i => s.relocTags.get i

/-- The state with the record of a tag replaced. -/
def setTag (s : State) (r : TagRecord) : TagRef → State
  | .front i => s.setFrontTag i r
  | .reloc i => s.setRelocTag i r

/-- A tag answered: DONE on the F-link or RELOC-DONE on the B-link (R136). -/
def answerTag (s : State) (failed : Bool) : TagRef → State
  | .front i => s.createF (.done i failed)
  | .reloc i => s.createB (.relocDone i failed)

/-- The DONE that answers a front tag. -/
def doneOf (failed : Bool) : TagRef → Option FRecord
  | .front i => some (.done i failed)
  | .reloc _ => none

/-- The RELOC-DONE that answers a relocation tag. -/
def relocDoneOf (failed : Bool) : TagRef → Option BRecord
  | .front _ => none
  | .reloc i => some (.relocDone i failed)

section tag
variable (s : State) (r : TagRecord) (b : Bool) (x y : TagRef)

theorem tagOf_congr {s t : State} (hf : t.frontTags = s.frontTags) (hr : t.relocTags = s.relocTags) :
    tagOf t x = tagOf s x := by
  cases x with
  | front i => exact congrArg (Table.get · i) hf
  | reloc i => exact congrArg (Table.get · i) hr

@[simp] theorem tagOf_setTag : tagOf (setTag s r x) y = if y = x then r else tagOf s y := by
  cases x <;> cases y <;> simp [tagOf, setTag, Table.get_set]

@[simp] theorem tagOf_answerTag : tagOf (answerTag s b x) y = tagOf s y := by
  cases x <;> exact tagOf_congr y (by simp [answerTag]) (by simp [answerTag])

@[simp] theorem setTag_out : (setTag s r x).outF = s.outF ∧ (setTag s r x).outB = s.outB := by
  cases x <;> exact ⟨rfl, rfl⟩

@[simp] theorem answerTag_outF : (answerTag s b x).outF = s.outF ++ (doneOf b x).toList := by
  cases x <;> simp [answerTag, doneOf]

@[simp] theorem answerTag_outB : (answerTag s b x).outB = s.outB ++ (relocDoneOf b x).toList := by
  cases x <;> simp [answerTag, relocDoneOf]

end tag

/-! ## One entry -/

/-- One sector entry settled, said once for both sources (R135, R136). -/
theorem settleEntry_sector (ok : Bool) (s : State) (x : Sector) : settleEntry ok s (.sector x) =
    if (tagOf s x.tag).inUse then
      let r := (tagOf s x.tag).settle ok
      if r.inUse then setTag s r x.tag else answerTag (setTag s r x.tag) r.failed x.tag
    else s := by
  obtain ⟨tag, _, _, _, _⟩ := x
  cases tag <;> rfl

/-- A tag record once `n` of its entries are settled (R62, R135). -/
def settledTag (ok : Bool) (n : Nat) (r : TagRecord) : TagRecord :=
  { r with
    remaining := r.remaining - n
    failed := r.failed || (!ok && decide (0 < n))
    inUse := decide (n < r.remaining) }

theorem settle_eq (ok : Bool) (r : TagRecord) : r.settle ok = settledTag ok 1 r := by
  have hpos : (r.remaining - 1 != 0) = decide (1 < r.remaining) := by
    rw [Bool.eq_iff_iff]; simp; omega
  simp [TagRecord.settle, settledTag, hpos]

theorem settledTag_zero (ok : Bool) {r : TagRecord} (h : r.inUse = true ↔ 1 ≤ r.remaining) :
    settledTag ok 0 r = r := by
  have huse : decide (0 < r.remaining) = r.inUse := by
    rw [Bool.eq_iff_iff, h, decide_eq_true_iff, Nat.lt_iff_add_one_le]
  simp [settledTag, huse]

theorem settledTag_settledTag (ok : Bool) (m n : Nat) (r : TagRecord) :
    settledTag ok n (settledTag ok m r) = settledTag ok (m + n) r := by
  have hfailed : (r.failed || (!ok && decide (0 < m)) || (!ok && decide (0 < n))) =
      (r.failed || (!ok && decide (0 < m + n))) := by
    cases r.failed <;> cases ok <;> simp
  have huse : decide (n < r.remaining - m) = decide (m + n < r.remaining) := by
    rw [decide_eq_decide]; omega
  unfold settledTag
  dsimp only
  rw [hfailed, huse, Nat.sub_sub]

/-- The tag that an entry ends when `left` says how many entries each tag has still to settle (R136). -/
def endedHere (left : TagRef → Nat) : Entry → List TagRef
  | .sector y => if left y.tag = 1 then [y.tag] else []
  | .pad => []

/-- What is left to settle behind an entry. -/
def leftAfter (left : TagRef → Nat) (e : Entry) (x : TagRef) : Nat :=
  if e.carries x then left x - 1 else left x

theorem one_le_of_carried {left : TagRef → Nat} {e : Entry} {es : List Entry} {x : TagRef}
    (h : (e :: es).countP (Entry.carries x) ≤ left x) (hx : e.carries x = true) : 1 ≤ left x := by
  rw [List.countP_cons, if_pos hx] at h
  omega

theorem leftAfter_enough {left : TagRef → Nat} {e : Entry} {es : List Entry} {x : TagRef}
    (h : (e :: es).countP (Entry.carries x) ≤ left x) : es.countP (Entry.carries x) ≤ leftAfter left e x := by
  rw [List.countP_cons] at h
  unfold leftAfter
  split at h
  · next hx => rw [if_pos hx]; omega
  · next hx => rw [if_neg hx]; exact h

/-- The tag that the entry at place `k` ends, if it ends one (R136). -/
def endedAt (left : TagRef → Nat) (es : List Entry) (k : Nat) : Option TagRef :=
  match es[k]? with
  | some (.sector y) =>
    if (es.take (k + 1)).countP (Entry.carries y.tag) = left y.tag then some y.tag else none
  | _ => none

theorem endedTags_eq (left : TagRef → Nat) (es : List Entry) :
    endedTags left es = (List.range es.length).filterMap (endedAt left es) := rfl

theorem endedAt_zero (left : TagRef → Nat) (e : Entry) (es : List Entry) :
    (endedAt left (e :: es) 0).toList = endedHere left e := by
  cases e with
  | pad => rfl
  | sector y =>
    have hcount : ((Entry.sector y :: es).take 1).countP (Entry.carries y.tag) = 1 := by simp [Entry.carries]
    by_cases hy : left y.tag = 1
    · simp [endedAt, endedHere, Entry.carries, hy]
    · simp [endedAt, endedHere, Entry.carries, hy, Ne.symm hy]

/-- An entry ends the same tag behind another one, counted from what that one leaves. -/
theorem endedAt_succ {left : TagRef → Nat} {e : Entry} (h : ∀ x, e.carries x = true → 1 ≤ left x)
    (es : List Entry) (k : Nat) : endedAt left (e :: es) (k + 1) = endedAt (leftAfter left e) es k := by
  unfold endedAt
  rw [List.getElem?_cons_succ]
  match es[k]? with
  | none | some .pad => rfl
  | some (.sector y) =>
    have hleft := h y.tag
    refine if_congr ?_ rfl rfl
    rw [List.take_succ_cons, List.countP_cons, leftAfter]
    by_cases hc : e.carries y.tag = true
    · have := hleft hc
      simp only [hc, if_true]; omega
    · simp only [hc, if_false, Bool.false_eq_true]; omega

/-- The tags that an entry and those behind it end, where every tag that the entry carries has entries left. -/
theorem endedTags_cons {left : TagRef → Nat} {e : Entry} (h : ∀ x, e.carries x = true → 1 ≤ left x)
    (es : List Entry) : endedTags left (e :: es) = endedHere left e ++ endedTags (leftAfter left e) es := by
  have htail : endedAt left (e :: es) ∘ Nat.succ = endedAt (leftAfter left e) es := funext (endedAt_succ h es)
  rw [endedTags_eq, endedTags_eq, List.length_cons, List.range_succ_eq_map, ← endedAt_zero left e es]
  rw [← htail, ← List.filterMap_map, List.filterMap_cons]
  cases endedAt left (e :: es) 0 <;> rfl

/-- Of the tags that entries end, a tag stands there once if its last entry is among them, and otherwise not at all
(R136). -/
theorem endedTags_filter {left : TagRef → Nat} {es : List Entry}
    (h : ∀ x, es.countP (Entry.carries x) ≤ left x) (x : TagRef) : (endedTags left es).filter (· == x) =
      if 0 < es.countP (Entry.carries x) ∧ es.countP (Entry.carries x) = left x then [x] else [] := by
  induction es generalizing left with
  | nil => simp [endedTags]
  | cons e es ih =>
    rw [endedTags_cons fun y => one_le_of_carried (h y), List.filter_append, ih fun y => leftAfter_enough (h y)]
    have hx := h x
    simp only [List.countP_cons] at hx ⊢
    cases e with
    | pad => simp [endedHere, leftAfter, Entry.carries]
    | sector y =>
      by_cases hy : y.tag = x
      · subst hy
        simp only [Entry.carries, beq_self_eq_true, if_true] at hx
        by_cases hone : left y.tag = 1
        · have hnone : es.countP (Entry.carries y.tag) = 0 := by omega
          simp [endedHere, leftAfter, Entry.carries, hone, hnone]
        · simp only [endedHere, leftAfter, Entry.carries, hone, beq_self_eq_true, if_true, if_false, List.filter_nil,
            List.nil_append]
          refine if_congr ?_ rfl rfl
          omega
      · have hother : (endedHere left (.sector y)).filter (· == x) = [] := by
          simp only [endedHere]; split <;> simp [hy]
        simp [hother, leftAfter, Entry.carries, hy]

/-- The tag records stand for at least these entries: each tag has `left` entries to settle, is in use exactly
while it has one, and the entries that carry it are among them (R63). -/
structure Covers (s : State) (left : TagRef → Nat) (es : List Entry) : Prop where
  remaining : ∀ x, (tagOf s x).remaining = left x
  enough : ∀ x, es.countP (Entry.carries x) ≤ left x
  inUse : ∀ x, (tagOf s x).inUse = true ↔ 1 ≤ left x

theorem filterMap_one {α β : Type} (f : α → Option β) (a : α) : [a].filterMap f = (f a).toList := by
  cases h : f a <;> simp [h]

section entry
variable {s : State} {left : TagRef → Nat} {e : Entry} {es : List Entry} (ok : Bool)

theorem Covers.carried (h : Covers s left (e :: es)) (x : TagRef) : e.carries x = true → 1 ≤ left x :=
  one_le_of_carried (h.enough x)

/-- The record of each tag after one entry. -/
theorem tagOf_settleEntry (h : Covers s left (e :: es)) (x : TagRef) :
    tagOf (settleEntry ok s e) x = if e.carries x then settledTag ok 1 (tagOf s x) else tagOf s x := by
  cases e with
  | pad => rfl
  | sector y =>
    have huse : (tagOf s y.tag).inUse = true := (h.inUse _).mpr (h.carried _ (by simp [Entry.carries]))
    rw [settleEntry_sector, if_pos huse]
    dsimp only
    rw [settle_eq]
    by_cases hx : x = y.tag
    · subst hx
      split <;> simp [Entry.carries]
    · split <;> simp [Entry.carries, hx, Ne.symm hx]

/-- The answers that one entry creates: that of the tag it ends. -/
theorem settleEntry_out (h : Covers s left (e :: es)) :
    (settleEntry ok s e).outF = s.outF
        ++ (endedHere left e).filterMap (fun x => doneOf ((tagOf s x).failed || !ok) x)
      ∧ (settleEntry ok s e).outB = s.outB
        ++ (endedHere left e).filterMap (fun x => relocDoneOf ((tagOf s x).failed || !ok) x) := by
  cases e with
  | pad => simp [settleEntry, endedHere]
  | sector y =>
    have hleft : 1 ≤ left y.tag := h.carried _ (by simp [Entry.carries])
    rw [settleEntry_sector, if_pos ((h.inUse _).mpr hleft)]
    dsimp only
    have hends : ((tagOf s y.tag).settle ok).inUse = true ↔ left y.tag ≠ 1 := by
      simp [TagRecord.settle, h.remaining]; omega
    by_cases hone : left y.tag = 1
    · rw [if_neg (by simp [hends, hone])]
      simp only [answerTag_outF, answerTag_outB, setTag_out, endedHere, hone, if_true, filterMap_one]
      exact ⟨rfl, rfl⟩
    · rw [if_pos (hends.mpr hone)]
      simp [endedHere, hone]

theorem Covers.settleEntry (h : Covers s left (e :: es)) :
    Covers (Machine.settleEntry ok s e) (leftAfter left e) es where
  remaining x := by
    rw [tagOf_settleEntry ok h, leftAfter, ← h.remaining]
    split <;> rfl
  enough x := leftAfter_enough (h.enough x)
  inUse x := by
    rw [tagOf_settleEntry ok h, leftAfter]
    split
    · simp [settledTag, h.remaining]; omega
    · exact h.inUse x

end entry

/-! ## All entries -/

/-- The record of each tag after entries are settled (R62, R135). -/
theorem tagOf_settleEntries (ok : Bool) {s : State} {left : TagRef → Nat} {es : List Entry} (h : Covers s left es)
    (x : TagRef) : tagOf (settleEntries ok es s) x = settledTag ok (es.countP (Entry.carries x)) (tagOf s x) := by
  induction es generalizing s left with
  | nil => exact (settledTag_zero ok (by rw [h.inUse x, h.remaining x] : (tagOf s x).inUse = true ↔ _)).symm
  | cons e es ih =>
    have hrest := ih (h.settleEntry ok)
    rw [tagOf_settleEntry ok h] at hrest
    rw [List.countP_cons, show settleEntries ok (e :: es) s = settleEntries ok es (settleEntry ok s e) from rfl, hrest]
    split
    · rw [settledTag_settledTag, Nat.add_comm]
    · rfl

/-- The answers that settling entries creates, in the order in which tags end (R136). -/
theorem settleEntries_out (ok : Bool) {s : State} {left : TagRef → Nat} {es : List Entry} (h : Covers s left es) :
    (settleEntries ok es s).outF = s.outF
        ++ (endedTags left es).filterMap (fun x => doneOf ((tagOf s x).failed || !ok) x)
      ∧ (settleEntries ok es s).outB = s.outB
        ++ (endedTags left es).filterMap (fun x => relocDoneOf ((tagOf s x).failed || !ok) x) := by
  induction es generalizing s left with
  | nil => simp [settleEntries, endedTags]
  | cons e es ih =>
    have hmark : ∀ x, ((tagOf (settleEntry ok s e) x).failed || !ok) = ((tagOf s x).failed || !ok) := fun x => by
      rw [tagOf_settleEntry ok h]
      split
      · cases ok <;> simp [settledTag]
      · rfl
    obtain ⟨hF, hB⟩ := ih (h.settleEntry ok)
    obtain ⟨hF1, hB1⟩ := settleEntry_out ok h
    simp only [hmark] at hF hB
    rw [endedTags_cons h.carried, List.filterMap_append, List.filterMap_append, ← List.append_assoc,
      ← List.append_assoc, ← hF1, ← hB1]
    exact ⟨hF, hB⟩

/-- The answers of one tag among those of all tags that entries end. -/
theorem filter_answers {α : Type} {f : TagRef → Option α} {p : α → Bool} {x : TagRef} {a : α} (hf : f x = some a)
    (hp : ∀ y d, f y = some d → (p d = true ↔ y = x)) (l : List TagRef) :
    (l.filterMap f).filter p = (l.filter (· == x)).map fun _ => a := by
  induction l with
  | nil => rfl
  | cons y l ih =>
    by_cases hy : y = x
    · subst hy
      simp [hf, (hp y a hf).mpr rfl, ih]
    · cases hfy : f y with
      | none => simp [hfy, hy, ih]
      | some d => simp [hfy, hy, ih, mt (hp y d hfy).mp hy]

/-- Settles O41: the entries are settled one after another, each ending at most its own tag. -/
theorem settling : Obligations.Settling := by
  rintro s _ ok es n left hn hfront hreloc rfl
  obtain rfl : n = fun x => es.countP (Entry.carries x) := funext hn
  have hleft : ∀ x, left x = (tagOf s x).remaining ∧ es.countP (Entry.carries x) ≤ left x
      ∧ ((tagOf s x).inUse = true ↔ 1 ≤ left x)
    | .front i => hfront i
    | .reloc i => hreloc i
  have h : Covers s left es := ⟨fun x => (hleft x).1.symm, fun x => (hleft x).2.1, fun x => (hleft x).2.2⟩
  obtain ⟨hF, hB⟩ := settleEntries_out ok h
  obtain ⟨ft, rt, fl, bl, hframe⟩ := settleEntries_changes s ok es
  refine ⟨_, _, hF, hB, by rw [hframe], ?dones, ?relocDones, ?frontTags, ?relocTags⟩
  case dones | relocDones => congr 1; funext x; cases x <;> rfl
  case frontTags =>
    rintro i _ rfl
    refine ⟨tagOf_settleEntries ok h (.front i), ?_⟩
    rw [filter_answers (x := .front i) (a := .done i ((s.frontTags.get i).failed || !ok)) rfl,
      endedTags_filter h.enough, ← (hfront i).1]
    · split <;> rfl
    · rintro (j | j) d hd <;> cases hd
      simp
  case relocTags =>
    rintro i _ rfl
    refine ⟨tagOf_settleEntries ok h (.reloc i), ?_⟩
    rw [filter_answers (x := .reloc i) (a := .relocDone i ((s.relocTags.get i).failed || !ok)) rfl,
      endedTags_filter h.enough, ← (hreloc i).1]
    · split <;> rfl
    · rintro (j | j) d hd <;> cases hd
      simp

end Sys2Proof.Proofs
end

section
/-! SUPPORT. The law of the tags (R63): which sector entries an operation moves between the lanes and the entries that
have left a lane and are still to be settled. -/

namespace Sys2Proof.Proofs
open Sys2Proof Sys2Proof.Machine

/-! ## The entries that one lane holds -/

/-- The entries a lane holds: of its outstanding units, and those that FAULT entry would discard. -/
def heldBy (ln : Lane) : List Entry := ln.outstanding.flatMap Issued.entries ++ ln.discards

/-- How many entries of a tag a lane holds. -/
def load (x : TagRef) (ln : Lane) : Nat := (heldBy ln).countP (Entry.carries x)

/-- The load in three parts: outstanding units, ready units, filling unit. -/
theorem load_eq (x : TagRef) (ln : Lane) : load x ln =
    (ln.outstanding.flatMap Issued.entries).countP (Entry.carries x)
      + (ln.ready.flatMap SealedUnit.entries).countP (Entry.carries x)
      + (ln.filling.map Entry.sector).countP (Entry.carries x) := by
  simp [load, heldBy, Lane.discards, Nat.add_assoc]

@[simp] theorem countP_pads (x : TagRef) (n : Nat) : (List.replicate n Entry.pad).countP (Entry.carries x) = 0 := by
  simp [List.countP_replicate, Entry.carries]

/-- A tag's sector entries among a lane's are its load. -/
theorem sectors_load (x : TagRef) (ln : Lane) : ln.sectors.countP (fun y => y.tag == x) = load x ln := by
  have hunits : ∀ es : List Entry, (es.filterMap fun e => match e with | .sector y => some y | .pad => none).countP
      (fun y => y.tag == x) = es.countP (Entry.carries x) := fun es => by
    induction es with
    | nil => rfl
    | cons e es ih => cases e <;> simp [List.countP_cons, Entry.carries, ih]
  rw [load_eq, ← List.countP_append, ← hunits, Lane.sectors, List.countP_append, List.countP_map]
  rfl

theorem load_congr {a b : Lane} (x : TagRef) (h : b.outstanding = a.outstanding ∧ b.requeued = a.requeued
    ∧ b.fresh = a.fresh ∧ b.filling = a.filling) : load x b = load x a := by
  obtain ⟨ho, hq, hf, hs⟩ := h
  simp only [load_eq, Lane.ready, ho, hq, hf, hs]

section lane
variable (x : TagRef) (ln : Lane)

@[simp] theorem load_seek (mark : Nat) : load x (ln.seek mark) = load x ln := load_congr x (by simp)

@[simp] theorem load_advanced (per mark : Nat) : load x (ln.advanced per mark) = load x ln := load_congr x (by simp)

@[simp] theorem load_dropBlock : load x ln.dropBlock = load x ln := load_congr x (by simp)

@[simp] theorem load_emptied : load x ln.emptied = load x ln := by
  unfold Lane.emptied; split <;> simp

@[simp] theorem load_checked : load x ln.checked = load x ln := by
  unfold Lane.checked
  split
  · exact load_congr x (by simp [Lane.drained])
  · rfl

/-- A millisecond tick counts the timers of a lane and leaves its entries alone. -/
@[simp] theorem load_tick : load x ln.tick = load x ln := by
  simp [load_eq, Lane.tick, Lane.ready, List.flatMap_map]

/-- Sealing moves the filling unit's entries into the ready queue, made up with pads (R69). -/
@[simp] theorem load_sealFilling (U : Nat) : load x (ln.sealFilling U) = load x ln := by
  simp only [load_eq, sealFilling_ready, sealFilling_frame, List.flatMap_append, List.countP_append,
    List.flatMap_singleton, countP_pads, List.map_nil, List.countP_nil]
  omega

@[simp] theorem load_sealOrFlag (U : Nat) : load x (ln.sealOrFlag U) = load x ln := by
  obtain ⟨h, _⟩ | ⟨_, _, h⟩ | ⟨_, _, _, h⟩ := sealOrFlag_cases ln U
  · rw [h]
  · rw [h, load_sealFilling]
  · rw [h]; exact load_congr x ⟨rfl, rfl, rfl, rfl⟩

@[simp] theorem load_sealWaiting (U : Nat) : load x (ln.sealWaiting U) = load x ln := by
  obtain ⟨_, _, _, h⟩ | ⟨_, h⟩ := sealWaiting_cases ln U <;> simp [h]

/-- An entry that joins is held, wherever the append leaves it (R60, R74). -/
theorem load_append (U age : Nat) (y : Sector) :
    load x (ln.append U age y) = load x ln + [Entry.sector y].countP (Entry.carries x) := by
  have hjoined : ∀ timer, load x { ln with filling := ln.filling ++ [y], sealAge := timer } =
      load x ln + [Entry.sector y].countP (Entry.carries x) := fun timer => by
    simp [load_eq, Lane.ready, Nat.add_assoc]
  obtain ⟨_, h⟩ | ⟨_, _, h⟩ | ⟨_, _, h⟩ := append_cases ln U age y
  · rw [h, hjoined]
  · rw [h, load_sealFilling, hjoined]
  · rw [h, hjoined]

theorem load_appendAll (U age : Nat) (ys : List Sector) :
    load x (ln.appendAll U age ys) = load x ln + (ys.map Entry.sector).countP (Entry.carries x) := by
  induction ys generalizing ln with
  | nil => rfl
  | cons y ys ih =>
    have hrest := ih (ln.append U age y)
    rw [load_append] at hrest
    rw [List.map_cons, ← List.singleton_append (l := ys.map _), List.countP_append, ← Nat.add_assoc, ← hrest]
    rfl

/-- A re-queued unit is held again (R128). -/
theorem load_requeue (u : Issued) (n : Nat) :
    load x (ln.requeue u n) = load x ln + u.entries.countP (Entry.carries x) := by
  simp [load_eq, Lane.requeue, Lane.ready]
  omega

/-- An issued unit moves from the ready queue to the outstanding list (R83). -/
theorem load_sent {ln ln' : Lane} {u : SealedUnit} (hp : ln.popReady = some (u, ln')) (timeout : Nat) (b : BlockAddr)
    (again : Bool) : load x (ln'.sent timeout u b again) = load x ln := by
  have hready := popReady_some hp
  obtain ⟨q, f, rfl⟩ := popReady_changes hp
  simp only [load_eq, hready]
  simp [Lane.sent, Lane.ready]
  omega

/-- A unit that leaves the outstanding list takes its entries with it. -/
theorem load_outstanding {us vs : List Issued} {u : Issued} (h : ln.outstanding = us ++ u :: vs) :
    load x ln = load x { ln with outstanding := us ++ vs } + u.entries.countP (Entry.carries x) := by
  simp [load_eq, h, Lane.ready]
  omega

/-- FAULT entry lets go of the ready units and of the filling unit (R100). -/
theorem load_faulted (n : Nat) : load x ln = load x (ln.faulted n) + ln.discards.countP (Entry.carries x) := by
  rw [faulted_eq]
  simp [load, heldBy, Lane.discards, Lane.ready]

end lane

/-! ## The entries that all lanes hold together -/

/-- How many entries of a tag all lanes hold together. -/
def held (x : TagRef) (s : State) : Nat := ∑ l, load x (s.lanes.get l)

/-- A table lists its records in their order. -/
theorem items_eq {α : Type} {n : Nat} (t : Table α n) : t.items = List.ofFn t.get := by
  refine List.ext_getElem (by simp [t.size]) fun k h1 h2 => ?_
  simp [Table.get]

/-- The sector entries of a tag are those that the lanes hold. -/
theorem sectors_held (x : TagRef) (s : State) : s.sectors.countP (fun y => y.tag == x) = held x s := by
  have hload : (List.countP (fun y : Sector => y.tag == x)) ∘ Lane.sectors = load x := funext (sectors_load x)
  rw [State.sectors, List.countP_flatMap, hload, items_eq, List.map_ofFn, List.sum_ofFn]
  rfl

theorem held_congr {s t : State} {x : TagRef} (h : ∀ l, load x (t.lanes.get l) = load x (s.lanes.get l)) :
    held x t = held x s := Finset.sum_congr rfl fun l _ => h l

/-- Where one lane is replaced, the entries held change by its own. -/
theorem held_set {s t : State} {l : LaneId} {ln : Lane} (h : t.lanes = s.lanes.set l ln) (x : TagRef) :
    held x t + load x (s.lanes.get l) = held x s + load x ln := by
  have hothers : ∑ m ∈ Finset.univ.erase l, load x (t.lanes.get m) =
      ∑ m ∈ Finset.univ.erase l, load x (s.lanes.get m) :=
    Finset.sum_congr rfl fun m hm => by rw [h, Table.get_set_ne _ _ (Finset.ne_of_mem_erase hm)]
  have ht : load x (t.lanes.get l) + ∑ m ∈ Finset.univ.erase l, load x (t.lanes.get m) = held x t :=
    Finset.add_sum_erase _ (fun m => load x (t.lanes.get m)) (Finset.mem_univ l)
  have hs : load x (s.lanes.get l) + ∑ m ∈ Finset.univ.erase l, load x (s.lanes.get m) = held x s :=
    Finset.add_sum_erase _ (fun m => load x (s.lanes.get m)) (Finset.mem_univ l)
  rw [h, Table.get_set_self] at ht
  rw [h] at hothers
  omega

/-! ## The tag records and the entries they count -/

/-- The tag records count the entries that the lanes hold together with the entries `es`, which have left a lane, or
are on their way to one, and a tag is in use exactly while it has an entry (R63). -/
structure TagsCount (s : State) (es : List Entry) : Prop where
  remaining : ∀ x, (tagOf s x).remaining = held x s + es.countP (Entry.carries x)
  inUse : ∀ x, (tagOf s x).inUse = true ↔ 1 ≤ (tagOf s x).remaining

/-- An operation that takes the records' count of `es` to their count of `fs`, and puts no free tag to use. -/
def TagMove (s : State) (es : List Entry) (t : State) (fs : List Entry) : Prop :=
  TagsCount s es → TagsCount t fs ∧ ∀ x, (tagOf t x).inUse = true → (tagOf s x).inUse = true

section moves
variable {s t : State} {es fs : List Entry}

theorem TagMove.counts (h : TagMove s es t fs) (hs : TagsCount s es) : TagsCount t fs := (h hs).1

theorem TagMove.trans {v : State} {gs : List Entry} (h1 : TagMove s es t fs) (h2 : TagMove t fs v gs) :
    TagMove s es v gs := fun h => by
  obtain ⟨ht, hfree1⟩ := h1 h
  obtain ⟨hv, hfree2⟩ := h2 ht
  exact ⟨hv, fun x hx => hfree1 x (hfree2 x hx)⟩

/-- Where the tag records stay, what the lanes gain is what the entries outside them lose. -/
theorem TagMove.of_held (hf : t.frontTags = s.frontTags) (hr : t.relocTags = s.relocTags)
    (hh : ∀ x, held x s + es.countP (Entry.carries x) = held x t + fs.countP (Entry.carries x)) :
    TagMove s es t fs := fun h => by
  have htag : ∀ x, tagOf t x = tagOf s x := fun x => tagOf_congr x hf hr
  exact ⟨⟨fun x => by rw [htag, h.remaining, hh], fun x => by rw [htag]; exact h.inUse x⟩,
    fun x hx => by rwa [htag] at hx⟩

theorem TagMove.of_load (hf : t.frontTags = s.frontTags) (hr : t.relocTags = s.relocTags)
    (hl : ∀ x l, load x (t.lanes.get l) = load x (s.lanes.get l)) : TagMove s es t es :=
  .of_held hf hr fun x => by rw [held_congr (hl x)]

/-- A change of other fields. -/
theorem TagMove.same (h : t.frontTags = s.frontTags ∧ t.relocTags = s.relocTags ∧ t.lanes = s.lanes) :
    TagMove s es t es :=
  .of_load h.1 h.2.1 fun x l => by rw [h.2.2]

/-- One lane replaced. -/
theorem TagMove.set {l : LaneId} {ln : Lane}
    (h : t.frontTags = s.frontTags ∧ t.relocTags = s.relocTags ∧ t.lanes = s.lanes.set l ln)
    (hl : ∀ x, load x (s.lanes.get l) + es.countP (Entry.carries x) = load x ln + fs.countP (Entry.carries x)) :
    TagMove s es t fs :=
  .of_held h.1 h.2.1 fun x => by
    have hset := held_set h.2.2 x
    have hx := hl x
    omega

/-- One lane replaced by one that holds the same entries. -/
theorem TagMove.set_load {l : LaneId} {ln : Lane}
    (h : t.frontTags = s.frontTags ∧ t.relocTags = s.relocTags ∧ t.lanes = s.lanes.set l ln)
    (hl : ∀ x, load x ln = load x (s.lanes.get l)) : TagMove s es t es :=
  .set h fun x => by rw [hl]

/-- Settled entries are counted no more (R62, R135). -/
theorem TagMove.settle (ok : Bool) : TagMove s (es ++ fs) (settleEntries ok es s) fs := fun h => by
  have hcovers : Covers s (fun x => (tagOf s x).remaining) es :=
    ⟨fun x => rfl, fun x => by rw [h.remaining, List.countP_append]; omega, h.inUse⟩
  have hheld : ∀ x, held x (settleEntries ok es s) = held x s := fun x => held_congr fun l => by simp
  refine ⟨⟨fun x => ?_, fun x => ?_⟩, fun x => ?_⟩
  · rw [tagOf_settleEntries ok hcovers, hheld]
    simp only [settledTag, h.remaining, List.countP_append]
    omega
  · rw [tagOf_settleEntries ok hcovers]
    simp only [settledTag, decide_eq_true_iff]
    omega
  · rw [tagOf_settleEntries ok hcovers, h.inUse]
    simp only [settledTag, decide_eq_true_iff]
    omega

/-- A reset of the lanes and of both tag tables leaves no entry and no tag in use (R62, R70). -/
theorem TagMove.of_reset (h : t.frontTags = .replicate 4096 TagRecord.reset
    ∧ t.relocTags = .replicate 512 TagRecord.reset ∧ t.lanes = .replicate 48 Lane.reset) : TagMove s es t [] :=
  fun _ => by
    obtain ⟨hf, hr, hl⟩ := h
    have htag : ∀ x, tagOf t x = TagRecord.reset := fun x => by cases x <;> simp [tagOf, hf, hr]
    have hload : ∀ x l, load x (t.lanes.get l) = 0 := fun x l => by
      rw [hl, Table.get_replicate]; rfl
    refine ⟨⟨fun x => ?_, fun x => ?_⟩, fun x hx => ?_⟩
    · rw [htag, held, Finset.sum_eq_zero fun l _ => hload x l]; rfl
    · rw [htag]; simp [TagRecord.reset]
    · rw [htag] at hx; cases hx

/-- The entries of one unit, or of one lane, settled. -/
theorem TagMove.settle_all (ok : Bool) : TagMove s es (settleEntries ok es s) [] := by
  simpa using TagMove.settle (s := s) (es := es) (fs := []) ok

/-! ## The operations of the lanes -/

theorem tagMove_choice : TagMove s es (transmitterChoice s) es := by
  obtain ⟨h, _⟩ | ⟨r, rest, _, _, h⟩ | ⟨l, _, _, _, _, hi, h⟩ := transmitterChoice_cases s
  · rw [h]; exact .same ⟨rfl, rfl, rfl⟩
  · rw [h]; exact .same ⟨rfl, rfl, rfl⟩
  · obtain ⟨u, ln, c, hp, hc⟩ := issuable_pop hi
    refine .set_load ⟨by simp, by simp, by rw [h, issue_lanes s l hp hc]⟩ fun x => ?_
    rw [load_sealWaiting, load_advanced, load_sent x hp]

/-- An operation followed by the transmitter's choice. -/
theorem TagMove.choice (h : TagMove s es t fs) : TagMove s es (transmitterChoice t) fs := h.trans tagMove_choice

theorem tagMove_flushCheck : TagMove s es (flushCheck s) es := .same (by simp)

theorem tagMove_beginFlush : TagMove s es (beginFlush s) es := by
  unfold beginFlush
  refine TagMove.choice (.of_load (by simp) (by simp) fun x l => ?_)
  have hflush : ∀ ln : Lane, load x (ln.flush s.settings.unitSize) = load x ln := fun ln =>
    (load_congr x ⟨rfl, rfl, rfl, rfl⟩).trans (load_sealOrFlag x ln _)
  simp [hflush]

/-- A unit that leaves the outstanding list is still to be settled or re-queued. -/
theorem tagMove_lift {l : LaneId} {us vs : List Issued} {u : Issued}
    (h : (s.lanes.get l).outstanding = us ++ u :: vs) :
    TagMove s [] (s.setLane l { s.lanes.get l with outstanding := us ++ vs }) u.entries :=
  .set ⟨rfl, rfl, rfl⟩ fun x => by rw [load_outstanding x _ h]; rfl

theorem tagMove_faultedHandback (l : LaneId) : TagMove s es (faultedHandback l s) es :=
  .set_load ⟨by simp, by simp, faultedHandback_lanes s l⟩ fun x => by simp

theorem tagMove_afterUnit (l : LaneId) : TagMove s es (afterUnit l s) es :=
  .set_load ⟨by simp, by simp, afterUnit_lanes s l⟩ fun x => by split <;> simp

/-- FAULT entry settles every entry that it takes from the lane (R100). -/
theorem tagMove_faultEntry (l : LaneId) : TagMove s [] (faultEntry l s) [] := by
  rw [faultEntry_eq]
  have htaken : TagMove s [] ((s.clearMaps l).setLane l ((s.lanes.get l).faulted s.settings.faultResidency))
      (s.lanes.get l).discards := .set ⟨rfl, rfl, rfl⟩ fun x => by rw [load_faulted x _ s.settings.faultResidency]; rfl
  exact (htaken.trans (.settle_all false)).trans (.same (by simp))

theorem tagMove_drainLane (l : LaneId) : TagMove s es (drainLane l s) es :=
  .set_load ⟨by simp [drainLane], by simp [drainLane], drainLane_lanes l⟩ fun x => by
    have hstopped : ∀ a : Lane, load x { a with sealAge := none } = load x a := fun a =>
      load_congr x ⟨rfl, rfl, rfl, rfl⟩
    rw [load_checked, hstopped, load_sealOrFlag]
    exact load_congr x ⟨rfl, rfl, rfl, rfl⟩

/-! ## Results -/

variable {l : LaneId} {u : Issued}

theorem tagMove_settleUnit (ok : Bool) : TagMove s u.entries (settleUnit ok l u s) [] :=
  ((TagMove.settle_all ok).trans (tagMove_afterUnit l)).trans tagMove_flushCheck

theorem tagMove_failLane : TagMove s u.entries (failLane l u s) [] :=
  ((TagMove.settle_all false).trans (tagMove_faultEntry l)).trans tagMove_flushCheck

theorem tagMove_abandonBlock : TagMove s es (abandonBlock l u s) es :=
  .set_load ⟨by simp, by simp, abandonBlock_lanes l u⟩ fun x => by simp

theorem tagMove_requeueUnit (n : Nat) : TagMove s u.entries (requeueUnit l u n s) [] :=
  .set ⟨rfl, rfl, rfl⟩ fun x => by rw [load_requeue]; rfl

theorem tagMove_failUnit : TagMove s u.entries (failUnit l u s) [] := by
  unfold failUnit
  dsimp only
  split
  · exact tagMove_settleUnit false
  split
  · exact tagMove_failLane
  split
  · exact tagMove_abandonBlock.trans (tagMove_requeueUnit _)
  · exact tagMove_requeueUnit _

theorem tagMove_abortUnit : TagMove s u.entries (abortUnit l u s) [] := by
  unfold abortUnit
  dsimp only
  split
  · exact tagMove_settleUnit false
  split
  · split
    · exact tagMove_failLane
    · exact tagMove_abandonBlock.trans (tagMove_requeueUnit _)
  · exact tagMove_requeueUnit _

theorem tagMove_timeoutUnit : TagMove s u.entries (timeoutUnit l u s) [] := by
  unfold timeoutUnit
  dsimp only
  have hsettled : TagMove s u.entries
      (takeCapture .resultTimeout l u ((settleEntries false u.entries s).raise .resultTimeout)) [] :=
    (TagMove.settle_all false).trans (.same (by simp))
  refine TagMove.trans ?_ tagMove_flushCheck
  split
  · exact hsettled.trans (tagMove_faultEntry l)
  split
  · exact hsettled.trans (tagMove_faultedHandback l)
  · exact hsettled

/-! ## Requests and grants -/

theorem tagMove_requestDrain (a : Admin) (l : LaneId) : TagMove s es (requestDrain a l s) es := by
  have hdrained : TagMove s es (transmitterChoice ((flushCheck (drainLane l s)).reply a .ok)) es :=
    ((tagMove_drainLane l).trans (.same (by simp))).choice
  unfold requestDrain
  split
  · exact hdrained
  · exact hdrained
  all_goals exact .same (by simp)

theorem tagMove_requestStop (a : Admin) (l : LaneId) : TagMove s [] (requestStop a l s) [] := by
  have hstopped : TagMove s [] ((flushCheck (faultEntry l s)).reply a .ok) [] :=
    (tagMove_faultEntry l).trans (.same (by simp))
  unfold requestStop
  split
  · exact hstopped
  · exact hstopped
  · exact hstopped
  all_goals exact .same (by simp)

theorem tagMove_requestClear (a : Admin) (l : LaneId) : TagMove s es (requestClear a l s) es := by
  unfold requestClear
  dsimp only
  split
  · split
    · exact .same (by simp)
    split
    · exact .same (by simp)
    · exact .set_load ⟨rfl, rfl, rfl⟩ fun x => load_congr x ⟨rfl, rfl, rfl, rfl⟩
  · exact .same (by simp)

theorem tagMove_storeGroup (a : Admin) (g : GroupId) (fields : List (Byte × BitVec 64)) :
    TagMove s es (storeGroup a g fields s) es := by
  obtain ⟨st, h⟩ | ⟨d, hl, hd, hpass⟩ := storeGroup_cases s a g fields
  · rw [h]; exact .same (by simp)
  obtain ⟨lanes, h, hlanes⟩ := storeGroup_stored hl hd hpass a
  rw [h]
  refine .of_load (by simp) (by simp) fun x m => ?_
  simp only [State.reply_lanes, createAllB_frame, hlanes]
  split
  · rw [load_seek]; exact load_congr x ⟨rfl, rfl, rfl, rfl⟩
  · rfl

theorem tagMove_takeGrant (f : LaneField) (b : BlockAddr) : TagMove s es (takeGrant f b s) es := by
  unfold takeGrant
  split
  · exact .same (by simp)
  next l _ =>
  split
  · exact .same (by simp)
  split
  · exact .same (by simp)
  split
  · exact .same (by simp)
  refine .set_load (l := l)
    (ln := Lane.seek s.settings.refillMark
      { s.lanes.get l with reserve := b :: (s.lanes.get l).reserve, want := false })
    ⟨by simp, by simp, by simp [acceptGrant, seekBlock_lanes]⟩ fun x => ?_
  rw [load_seek]
  exact load_congr x ⟨rfl, rfl, rfl, rfl⟩

/-! ## Acceptance -/

/-- A free tag that is given entries counts them while they are on their way to their lane (R56, R58). -/
theorem tagsCount_setTag {x : TagRef} {i : StreamId} (h : TagsCount s []) (hfree : (tagOf s x).inUse = false)
    (hes : ∀ y, es.countP (Entry.carries y) = if y = x then es.length else 0) (hpos : 1 ≤ es.length) :
    TagsCount (setTag s (acceptedTag es.length i) x) es := by
  have hheld : ∀ y, held y (setTag s (acceptedTag es.length i) x) = held y s := fun y =>
    held_congr fun l => by cases x <;> rfl
  have hnone : held x s = 0 := by
    have hcount := h.remaining x
    have huse := h.inUse x
    simp only [hfree, Bool.false_eq_true, false_iff] at huse
    simp at hcount
    omega
  refine ⟨fun y => ?_, fun y => ?_⟩
  · rw [tagOf_setTag, hheld, hes]
    split
    · next hy => rw [hy, hnone, Nat.zero_add]; rfl
    · exact h.remaining y
  · rw [tagOf_setTag]
    split
    · simpa [acceptedTag] using hpos
    · exact h.inUse y

/-- Entries on their way are placed in their lane (R60). -/
theorem tagMove_placeSectors (l : LaneId) (ys : List Sector) :
    TagMove s (ys.map .sector) (placeSectors l ys s) [] :=
  .set ⟨rfl, rfl, rfl⟩ fun x => by rw [load_appendAll]; rfl

/-- Sector entries that all carry one tag. -/
theorem countP_one_tag {ys : List Sector} {x : TagRef} (h : ∀ y ∈ ys, y.tag = x) (z : TagRef) :
    (ys.map Entry.sector).countP (Entry.carries z) = if z = x then (ys.map Entry.sector).length else 0 := by
  split
  · next hz =>
    rw [List.countP_eq_length]
    simpa [Entry.carries, hz] using h
  · next hz =>
    rw [List.countP_eq_zero]
    simp only [List.mem_map, forall_exists_index, and_imp, forall_apply_eq_imp_iff₂]
    intro y hy
    simp [Entry.carries, h y hy, Ne.symm hz]

/-- An accepted record: its tag counts its entries, and they stand in its lane (R56, R58). -/
theorem tagsCount_accepted {x : TagRef} {ys : List Sector} {n : Nat} (h : TagsCount s [])
    (hfree : (tagOf s x).inUse = false) (hys : ∀ y ∈ ys, y.tag = x) (hlen : ys.length = n) (hpos : 1 ≤ n)
    (i : StreamId) (l : LaneId) : TagsCount (placeSectors l ys (setTag s (acceptedTag n i) x)) [] := by
  have hset := tagsCount_setTag (i := i) h hfree (countP_one_tag hys) (by simpa [hlen] using hpos)
  rw [List.length_map, hlen] at hset
  exact (tagMove_placeSectors l ys).counts hset

theorem tagMove_countBackoff (l : LaneId) : TagMove s es (countBackoff l s) es :=
  .set_load ⟨rfl, rfl, rfl⟩ fun x => load_congr x ⟨rfl, rfl, rfl, rfl⟩

theorem tagsCount_setStream (h : TagsCount s es) {i : StreamId} {d : Stream} : TagsCount (s.setStream i d) es :=
  TagMove.counts (s := s) (.same ⟨rfl, rfl, rfl⟩) h

theorem tagsCount_classifyWrite {w : WriteRec} (h : TagsCount s []) (hfree : (tagOf s (.front w.tag)).inUse = false)
    (hpos : 1 ≤ w.length) : TagsCount (classifyWrite w s) [] := by
  have hrefused : ∀ r, TagsCount (refuseWrite w r s) [] := fun r => TagMove.counts (.same (by simp)) h
  unfold classifyWrite
  dsimp only
  split
  · split
    · exact hrefused _
    next l _ =>
    split
    · have haccepted := tagsCount_accepted (ys := writeSectors w (s.streams.get w.stream).group) h hfree
        (by simp [writeSectors]) (by simp [writeSectors]) hpos w.stream l
      exact tagsCount_setStream haccepted
    · exact ((tagMove_countBackoff l).trans (.same (by simp))).counts h
  · exact hrefused _

theorem tagsCount_classifyRelocate {r : RelocateRec} (h : TagsCount s [])
    (hfree : (tagOf s (.reloc r.tag)).inUse = false) (hpos : 1 ≤ r.sectors.length) :
    TagsCount (classifyRelocate r s) [] := by
  have htags : ∀ g, ∀ y ∈ relocateSectors r g, y.tag = .reloc r.tag := fun g y hy => by
    obtain ⟨_, _, rfl⟩ := List.mem_map.mp hy
    rfl
  unfold classifyRelocate
  dsimp only
  split
  · exact TagMove.counts (.same (by simp)) h
  next l _ =>
  split
  · exact tagsCount_accepted (x := .reloc r.tag) h hfree (htags _) (by simp [relocateSectors]) hpos r.stream l
  · exact ((tagMove_countBackoff l).trans (.same (by simp))).counts h

end moves

/-! ## Every step keeps the law -/

/-- The record in hand that has passed its tag check has entries and a free tag (R55). -/
def InHandFree (s : State) : Prop :=
  (∀ w, s.inHand = some (.write w) → 1 ≤ w.length ∧ (tagOf s (.front w.tag)).inUse = false)
    ∧ ∀ r, s.inHand = some (.relocate r) → 1 ≤ r.sectors.length ∧ (tagOf s (.reloc r.tag)).inUse = false

/-- Every record that waits in a queue has entries. -/
def QueuesFilled (s : State) : Prop :=
  (∀ w, .write w ∈ s.frontQueue → 1 ≤ w.length) ∧ ∀ r ∈ s.relocQueue, 1 ≤ r.sectors.length

theorem tagLaw_iff (s : State) : s.TagLaw ↔ TagsCount s [] ∧ InHandFree s ∧ QueuesFilled s := by
  constructor
  · rintro ⟨hfront, hreloc, hw, hr, hfq, hrq⟩
    have hall : ∀ x, (tagOf s x).remaining = held x s ∧ ((tagOf s x).inUse = true ↔ 1 ≤ (tagOf s x).remaining)
      | .front i => by rw [← sectors_held]; exact hfront i
      | .reloc i => by rw [← sectors_held]; exact hreloc i
    exact ⟨⟨fun x => by simpa using (hall x).1, fun x => (hall x).2⟩, ⟨hw, hr⟩, hfq, hrq⟩
  · rintro ⟨hcount, ⟨hw, hr⟩, hfq, hrq⟩
    have hall : ∀ x, (tagOf s x).remaining = s.sectors.countP (fun y => y.tag == x)
        ∧ ((tagOf s x).inUse = true ↔ 1 ≤ (tagOf s x).remaining) := fun x =>
      ⟨by simpa [sectors_held] using hcount.remaining x, hcount.inUse x⟩
    exact ⟨fun i => hall (.front i), fun i => hall (.reloc i), hw, hr, hfq, hrq⟩

section step
variable {s t : State}

/-- An effect moves entries and puts no free tag to use, or it classifies the record in hand. -/
theorem effect_tagMove (h : Effect s t) : TagMove s [] t []
    ∨ (∃ w, s.inHand = some (.write w)
        ∧ t = transmitterChoice (classifyWrite w (State.countAccess { s with inHand := none })))
    ∨ ∃ r, s.inHand = some (.relocate r)
        ∧ t = transmitterChoice (classifyRelocate r (State.countAccess { s with inHand := none })) := by
  have hlift : ∀ {l : LaneId} {u : Issued} {rest : List Issued} {b : BlockAddr} {i : Nat},
      takeMatch b i (s.lanes.get l).outstanding = some (u, rest) →
      TagMove s [] (s.setLane l { s.lanes.get l with outstanding := rest }) u.entries := fun hm => by
    obtain ⟨us, vs, ho, rfl, _⟩ := takeMatch_some hm
    exact tagMove_lift ho
  have htaken : TagMove s [] s.takeFront [] := .same ⟨rfl, rfl, rfl⟩
  cases h
  case writeClassified w h hm hp => exact .inr (.inl ⟨w, h, rfl⟩)
  case relocClassified r h hm hp => exact .inr (.inr ⟨r, h, rfl⟩)
  all_goals left
  case holdupAsserted =>
    exact TagMove.trans (t := { s with holdupPin := true }) (.same ⟨rfl, rfl, rfl⟩) tagMove_beginFlush
  case warningTaken => exact tagMove_beginFlush
  case sealAge l h =>
    refine TagMove.choice (.set_load ⟨rfl, rfl, rfl⟩ fun x => ?_)
    rw [load_sealOrFlag]
    exact load_congr x ⟨rfl, rfl, rfl, rfl⟩
  case timeout l n u rest h =>
    obtain ⟨us, vs, ho, rfl, _⟩ := takeDue_some h
    exact (tagMove_lift ho).trans tagMove_timeoutUnit
  case residency l h => exact .set_load ⟨rfl, rfl, rfl⟩ fun x => load_congr x ⟨rfl, rfl, rfl, rfl⟩
  case groupWrite a g fields h => exact (htaken.trans (tagMove_storeGroup a g fields)).choice
  case drain a l h => exact htaken.trans (tagMove_requestDrain a l)
  case stop a l h => exact htaken.trans (tagMove_requestStop a l)
  case clear a l h => exact htaken.trans (tagMove_requestClear a l)
  case softReset a h =>
    exact htaken.trans (.of_reset (by simp))
  case resultOk l u rest b i hs h => exact ((hlift h).trans (tagMove_settleUnit true)).choice
  case resultFail l u rest b i hs h =>
    exact (((hlift h).trans (.same (by simp))).trans tagMove_failUnit).choice
  case resultAborted l u rest b i hs h => exact ((hlift h).trans tagMove_abortUnit).choice
  case grant x b => exact (tagMove_takeGrant x b).choice
  case holdOffFree h hp => exact TagMove.choice (.same (by simp))
  case bSendEnd r h => exact TagMove.choice (.same (by simp))
  all_goals exact .same (by simp)

theorem InHandFree.of_none (h : t.inHand = none) : InHandFree t :=
  ⟨fun w hw => by simp [h] at hw, fun r hr => by simp [h] at hr⟩

/-- A record that stays in hand keeps its free tag. -/
theorem InHandFree.keep (hs : InHandFree s) (h : t.inHand = none ∨ t.inHand = s.inHand)
    (hfree : ∀ x, (tagOf t x).inUse = true → (tagOf s x).inUse = true) : InHandFree t := by
  have hstay : ∀ x, (tagOf s x).inUse = false → (tagOf t x).inUse = false := fun x hx => by
    rw [← Bool.not_eq_true] at hx ⊢
    exact mt (hfree x) hx
  obtain h | h := h
  · exact .of_none h
  · exact ⟨fun w hw => (hs.1 w (h ▸ hw)).imp_right (hstay _), fun r hr => (hs.2 r (h ▸ hr)).imp_right (hstay _)⟩

theorem nextFront_mem {r : FrontRec} (h : s.nextFront = some r) : r ∈ s.frontQueue := by
  unfold State.nextFront at h
  split at h
  · exact List.mem_of_mem_head? h
  · cases h

theorem nextReloc_mem {r : RelocateRec} (h : s.nextReloc = some r) : r ∈ s.relocQueue := by
  unfold State.nextReloc at h
  split at h
  · exact List.mem_of_mem_head? h
  · cases h

/-- An effect takes a record in hand only once it has passed its tag check (R53, R55, R57). -/
theorem inHandFree_effect (h : Effect s t) (hs : InHandFree s) (hq : QueuesFilled s)
    (hfree : ∀ x, (tagOf t x).inUse = true → (tagOf s x).inUse = true) : InHandFree t := by
  cases h
  case writeInHand w h hm ht =>
    refine ⟨fun w' hw => ?_, fun r hr => by cases hr⟩
    cases hw
    exact ⟨hq.1 w (nextFront_mem h), ht⟩
  case relocInHand r h hm ht =>
    refine ⟨fun w hw => by (cases hw), fun r' hr => ?_⟩
    cases hr
    exact ⟨hq.2 r (nextReloc_mem h), ht⟩
  case streamWaits => exact ⟨fun w hw => by (cases hw), fun r hr => by cases hr⟩
  all_goals exact hs.keep (by simp) hfree

theorem QueuesFilled.keep (hs : QueuesFilled s) (hf : ∀ r ∈ t.frontQueue, r ∈ s.frontQueue)
    (hr : ∀ r ∈ t.relocQueue, r ∈ s.relocQueue) : QueuesFilled t :=
  ⟨fun w hw => hs.1 w (hf _ hw), fun r h => hs.2 r (hr r h)⟩

/-- An effect lets only records with entries join a queue (R163, R165). -/
theorem queuesFilled_effect (h : Effect s t) (hs : QueuesFilled s) : QueuesFilled t := by
  cases h
  case frontArrival r h hw =>
    refine ⟨fun w h => ?_, hs.2⟩
    obtain h | h := List.mem_append.mp h
    · exact hs.1 w h
    · exact hw w (List.mem_singleton.mp h).symm
  case relocArrival r h hr =>
    refine ⟨hs.1, fun x h => ?_⟩
    obtain h | h := List.mem_append.mp h
    · exact hs.2 x h
    · rw [List.mem_singleton.mp h]; exact hr
  case softReset =>
    exact hs.keep (fun r h => List.mem_of_mem_tail (by simpa using h)) (fun r h => by simp at h)
  case relocPower | relocTag | relocInHand =>
    exact hs.keep (fun r h => by simpa using h) (fun r h => List.mem_of_mem_tail (by simpa using h))
  case writePower | writeTag | writeInHand | answered | streamWaits | streamRead | streamWrite | groupWrite
    | settingsWrite | drain | stop | clear | conditionClear | captureTake =>
    exact hs.keep (fun r h => List.mem_of_mem_tail (by simpa using h)) (fun r h => by simpa using h)
  all_goals exact hs.keep (fun r h => by simpa using h) (fun r h => by simpa using h)

/-- Every effect keeps the law of the tags. -/
theorem tagLaw_effect (h : Effect s t) (hs : s.TagLaw) : t.TagLaw := by
  rw [tagLaw_iff] at hs ⊢
  obtain ⟨hcount, hhand, hq⟩ := hs
  have hserved : TagMove s [] (State.countAccess { s with inHand := none }) [] := .same ⟨rfl, rfl, rfl⟩
  have hqueues := queuesFilled_effect h hq
  obtain hmove | ⟨w, hw, rfl⟩ | ⟨r, hr, rfl⟩ := effect_tagMove h
  · obtain ⟨hcount', hfree⟩ := hmove hcount
    exact ⟨hcount', inHandFree_effect h hhand hq hfree, hqueues⟩
  · obtain ⟨hpos, htag⟩ := hhand.1 w hw
    exact ⟨tagMove_choice.counts (tagsCount_classifyWrite (hserved.counts hcount) htag hpos),
      .of_none (by simp), hqueues⟩
  · obtain ⟨hpos, htag⟩ := hhand.2 r hr
    exact ⟨tagMove_choice.counts (tagsCount_classifyRelocate (hserved.counts hcount) htag hpos),
      .of_none (by simp), hqueues⟩

/-- The law reads the tag tables, the lanes, the record in hand and the queues alone. -/
theorem tagLaw_congr (hs : s.TagLaw) (h : t.frontTags = s.frontTags ∧ t.relocTags = s.relocTags ∧ t.lanes = s.lanes
    ∧ t.inHand = s.inHand ∧ t.frontQueue = s.frontQueue ∧ t.relocQueue = s.relocQueue) : t.TagLaw := by
  obtain ⟨hf, hr, hl, hi, hfq, hrq⟩ := h
  unfold State.TagLaw State.sectors at *
  rw [hf, hr, hl, hi, hfq, hrq]
  exact hs

/-- An operation that moves entries and leaves the record in hand and the queues alone. -/
theorem tagLaw_move (hs : s.TagLaw) (hmove : TagMove s [] t [])
    (h : t.inHand = s.inHand ∧ t.frontQueue = s.frontQueue ∧ t.relocQueue = s.relocQueue) : t.TagLaw := by
  rw [tagLaw_iff] at hs ⊢
  obtain ⟨hcount, hhand, hq⟩ := hs
  obtain ⟨hi, hf, hr⟩ := h
  obtain ⟨hcount', hfree⟩ := hmove hcount
  exact ⟨hcount', hhand.keep (.inr hi) hfree, hq.keep (fun _ h => hf ▸ h) (fun _ h => hr ▸ h)⟩

theorem tagLaw_after (h : After s t) (hs : s.TagLaw) : t.TagLaw := by
  refine after_keeps (I := State.TagLaw) ?latch ?held ?input ?flush ?effect s t h hs
  case latch => exact fun s hs => tagLaw_congr hs ⟨rfl, rfl, rfl, rfl, rfl, rfl⟩
  case held =>
    intro s k n hs _
    rw [tagLaw_iff] at hs ⊢
    exact ⟨TagMove.counts (.of_reset ⟨rfl, rfl, rfl⟩) hs.1, .of_none rfl,
      by simp [QueuesFilled, heldState, State.reset]⟩
  case input => exact fun s r w p hs => tagLaw_congr hs ⟨rfl, rfl, rfl, rfl, rfl, rfl⟩
  case flush => exact fun s hs => tagLaw_move hs tagMove_beginFlush (by simp)
  case effect => exact fun s t h hs => tagLaw_effect h hs

end step

/-- Settles O56: every step moves entries between the lanes, settles those that leave them, and gives a record's
entries to a tag that its check has found free. -/
theorem tagsKept : Obligations.TagsKept := by
  intro s t hs h
  refine step_keeps (I := State.TagLaw) ?queue ?draw (fun _ _ => tagLaw_after) ?tick hs h
  case queue => exact fun s q hs => tagLaw_congr hs ⟨rfl, rfl, rfl, rfl, rfl, rfl⟩
  case draw => exact fun s n hs => tagLaw_congr hs ⟨rfl, rfl, rfl, rfl, rfl, rfl⟩
  case tick =>
    refine fun s hs => tagLaw_move hs (.of_load rfl rfl fun x l => ?_) ⟨rfl, rfl, rfl⟩
    simp [msTick]

end Sys2Proof.Proofs
end

section
/-! SUPPORT. Placement in a lane (R59, R60, R74, R75): what the sectors of an accepted record leave of the filling unit,
the ready queue and the seal-age timer. -/

namespace Sys2Proof.Proofs
open Sys2Proof Sys2Proof.Machine

/-! ## The room of a lane -/

/-- The room in the words of R59. -/
theorem room_eq (U : Nat) (ln : Lane) : ln.room U =
    if ln.ready.length < 4 then (U - ln.filling.length) + U * (4 - ln.ready.length) else U - ln.filling.length := by
  unfold Lane.room
  rw [readyCount_eq]

/-- A lane whose filling unit has taken one entry without being sealed. -/
def joined (ln : Lane) (x : Sector) (timer : Option Nat) : Lane :=
  { ln with filling := ln.filling ++ [x], sealAge := timer }

@[simp] theorem joined_ready (ln : Lane) (x : Sector) (timer : Option Nat) : (joined ln x timer).ready = ln.ready := rfl

@[simp] theorem joined_filling (ln : Lane) (x : Sector) (timer : Option Nat) :
    (joined ln x timer).filling = ln.filling ++ [x] := rfl

/-- A lane whose filling unit has been sealed as a unit without pads (R74). -/
def sealedFull (ln : Lane) (u : SealedUnit) : Lane :=
  { ln with filling := [], sealAge := none, fresh := ln.fresh ++ [u] }

@[simp] theorem sealedFull_ready (ln : Lane) (u : SealedUnit) : (sealedFull ln u).ready = ln.ready ++ [u] := by
  simp [sealedFull, Lane.ready]

/-- The unit that a last sector fills. -/
def fullUnit (ln : Lane) (x : Sector) : SealedUnit := ⟨(ln.filling ++ [x]).map .sector, 1⟩

/-- A unit that fills needs no pads, and no flag stood over it (R69, R74). -/
theorem sealFilling_joined {U : Nat} {ln : Lane} {x : Sector} (hU : ln.filling.length + 1 = U)
    (hflag : ln.sealPending = false) (timer : Option Nat) :
    (joined ln x timer).sealFilling U = sealedFull ln (fullUnit ln x) := by
  simp [joined, Lane.sealFilling, sealedFull, fullUnit, hU, hflag]

/-- A filling unit stands full or flagged only while 4 units are ready (R74, R77). -/
def FullWaits (U : Nat) (ln : Lane) : Prop :=
  ln.filling.length ≤ U ∧ (ln.filling.length = U → 4 ≤ ln.ready.length) ∧ (ln.sealPending = true → 4 ≤ ln.ready.length)

/-- One entry joins a lane with room: the unit does not fill, fills and is sealed, or fills and waits, which leaves
no room (R60, R74). -/
theorem append_of_room {U : Nat} {ln : Lane} (hw : FullWaits U ln) (hroom : 1 ≤ ln.room U) (age : Nat) (x : Sector) :
    (ln.filling.length + 1 < U ∧ ln.append U age x = joined ln x (ln.timerAfter age))
      ∨ (ln.filling.length + 1 = U ∧ ln.ready.length < 4
        ∧ ln.append U age x = sealedFull ln (fullUnit ln x))
      ∨ (ln.filling.length + 1 = U ∧ 4 ≤ ln.ready.length ∧ ln.append U age x = joined ln x none ∧ ln.room U = 1) := by
  obtain ⟨hlen, hfull, hflag⟩ := hw
  rw [room_eq] at hroom ⊢
  obtain ⟨hf, h⟩ | ⟨hf, hr, h⟩ | ⟨hf, hr, h⟩ := append_cases ln U age x
  · exact .inl ⟨hf, h⟩
  · have hU : ln.filling.length + 1 = U := by omega
    have hunflagged : ln.sealPending = false := by
      rw [← Bool.not_eq_true]
      exact fun hp => absurd (hflag hp) (by omega)
    exact .inr (.inl ⟨hU, hr, h.trans (sealFilling_joined hU hunflagged _)⟩)
  · rw [if_neg (by omega)] at hroom ⊢
    exact .inr (.inr ⟨by omega, hr, h, by omega⟩)

/-- An entry that joins takes one place of the room (R59). -/
theorem room_joined {U : Nat} {ln : Lane} (h : ln.filling.length < U) (x : Sector) (timer : Option Nat) :
    (joined ln x timer).room U + 1 = ln.room U := by
  rw [room_eq, room_eq, joined_ready, joined_filling, List.length_append, List.length_singleton]
  split <;> omega

/-- A unit that fills and is sealed leaves the room of the units still to be made ready (R59). -/
theorem room_sealed {U : Nat} {ln : Lane} {u : SealedUnit} (h : ln.ready.length < 4) :
    (sealedFull ln u).room U = U * (4 - ln.ready.length) := by
  rw [room_eq, sealedFull_ready, List.length_append, List.length_singleton,
    show (sealedFull ln u).filling.length = 0 from rfl, Nat.sub_zero]
  split
  · rw [Nat.add_comm, ← Nat.mul_succ]
    congr 1
    omega
  · rw [show 4 - ln.ready.length = 1 by omega, Nat.mul_one]

/-! ## The sectors of a record -/

/-- The timer that runs for the filling unit once entries have joined: it runs on for the unit it runs for, starts
for a unit's first entry and stops for a unit that fills (R75). -/
def placedTimer (U age : Nat) (ln : Lane) (xs : List Sector) (units : List SealedUnit) (left : List Sector) :
    Option Nat :=
  if xs = [] then ln.sealAge
  else if left = [] ∨ left.length = U then none
  else if units = [] ∧ ln.filling ≠ [] then ln.sealAge
  else if age = 0 then none else some age

/-- What placed sectors leave of a lane: the units that they fill and seal, the filling unit, and its timer. -/
structure Placed (U age : Nat) (ln : Lane) (xs : List Sector) (units : List SealedUnit) (left : List Sector) :
    Prop where
  lane : ln.appendAll U age xs = { ln with
    filling := left, fresh := ln.fresh ++ units, sealAge := placedTimer U age ln xs units left }
  order : (units.flatMap SealedUnit.entries) ++ left.map .sector = (ln.filling ++ xs).map .sector
  whole : ∀ u ∈ units, u.entries.length = U ∧ u.attempt = 1
  bound : ln.ready.length + units.length ≤ max 4 ln.ready.length
  fits : left.length ≤ U
  waits : left.length = U → 4 ≤ ln.ready.length + units.length

theorem appendAll_cons (U age : Nat) (ln : Lane) (x : Sector) (xs : List Sector) :
    ln.appendAll U age (x :: xs) = (ln.append U age x).appendAll U age xs := rfl

/-- No sectors change nothing. -/
theorem Placed.of_nil {U age : Nat} {ln : Lane} {units : List SealedUnit} {left : List Sector}
    (h : Placed U age ln [] units left) : units = [] ∧ left = ln.filling := by
  have hlane : ln = _ := h.lane
  have hfresh := congrArg Lane.fresh hlane
  have hfilling := congrArg Lane.filling hlane
  exact ⟨by simpa using hfresh, hfilling.symm⟩

section cons
variable {U age : Nat} {ln : Lane} {x : Sector} {xs : List Sector} {units : List SealedUnit} {left : List Sector}

/-- Sectors placed behind one that does not fill its unit. -/
theorem Placed.cons_joined (hU : ln.filling.length + 1 < U) (h : ln.append U age x = joined ln x (ln.timerAfter age))
    (hrest : Placed U age (joined ln x (ln.timerAfter age)) xs units left) : Placed U age ln (x :: xs) units left where
  lane := by
    have htimer : placedTimer U age (joined ln x (ln.timerAfter age)) xs units left =
        placedTimer U age ln (x :: xs) units left := by
      cases xs with
      | nil =>
        obtain ⟨rfl, rfl⟩ := hrest.of_nil
        have hnot : ¬ (ln.filling ++ [x] = [] ∨ (ln.filling ++ [x]).length = U) := by simp; omega
        rw [placedTimer, placedTimer, if_pos rfl, if_neg (List.cons_ne_nil x []), joined_filling, if_neg hnot]
        by_cases hf : ln.filling = [] <;> simp [joined, Lane.timerAfter, hf]
      | cons y ys =>
        by_cases hf : ln.filling = [] <;> by_cases hu : units = [] <;>
          simp [placedTimer, joined, Lane.timerAfter, hf, hu]
    rw [appendAll_cons, h, hrest.lane, htimer]
    rfl
  order := by rw [hrest.order]; simp
  whole := hrest.whole
  bound := hrest.bound
  fits := hrest.fits
  waits := hrest.waits

/-- Sectors placed behind one that fills its unit, which is sealed without pads. -/
theorem Placed.cons_sealed (hU : ln.filling.length + 1 = U) (hready : ln.ready.length < 4)
    (h : ln.append U age x = sealedFull ln (fullUnit ln x))
    (hrest : Placed U age (sealedFull ln (fullUnit ln x)) xs units left) :
    Placed U age ln (x :: xs) (fullUnit ln x :: units) left where
  lane := by
    have htimer : placedTimer U age (sealedFull ln (fullUnit ln x)) xs units left =
        placedTimer U age ln (x :: xs) (fullUnit ln x :: units) left := by
      cases xs with
      | nil =>
        obtain ⟨rfl, rfl⟩ := hrest.of_nil
        simp [placedTimer, sealedFull]
      | cons y ys => simp [placedTimer, sealedFull]
    rw [appendAll_cons, h, hrest.lane, htimer]
    simp [sealedFull]
  order := by
    have horder := hrest.order
    simp only [List.flatMap_cons, List.append_assoc, horder]
    simp [sealedFull, fullUnit]
  whole u hu := by
    obtain rfl | hu := List.mem_cons.mp hu
    · simp [fullUnit, hU]
    · exact hrest.whole u hu
  bound := by
    have hbound := hrest.bound
    simp only [sealedFull_ready, List.length_append, List.length_cons, List.length_nil] at hbound ⊢
    omega
  fits := hrest.fits
  waits hfull := by
    have hwaits := hrest.waits hfull
    simp only [sealedFull_ready, List.length_append, List.length_cons, List.length_nil] at hwaits ⊢
    omega

/-- A last sector that fills its unit, which waits (R60). -/
theorem placed_waiting (hU : ln.filling.length + 1 = U) (hready : 4 ≤ ln.ready.length)
    (h : ln.append U age x = joined ln x none) : Placed U age ln [x] [] (ln.filling ++ [x]) where
  lane := by
    rw [appendAll_cons, h]
    simp [joined, Lane.appendAll, placedTimer, hU]
  order := by simp
  whole := by simp
  bound := by simp
  fits := by simp [hU]
  waits := by simpa using fun _ => hready

end cons

/-- Sectors within the room are placed, one after another (R60). -/
theorem placed_of_room {U age : Nat} (hU : 0 < U) {ln : Lane} {xs : List Sector} (hw : FullWaits U ln)
    (hroom : xs.length ≤ ln.room U) : ∃ units left, Placed U age ln xs units left := by
  induction xs generalizing ln with
  | nil =>
    obtain ⟨hlen, hfull, _⟩ := hw
    exact ⟨[], ln.filling, by simp [Lane.appendAll, placedTimer], by simp, by simp, by simp, hlen, by simpa using hfull⟩
  | cons x xs ih =>
    rw [List.length_cons] at hroom
    obtain ⟨hlen, hfull, hflag⟩ := hw
    obtain ⟨hf, h⟩ | ⟨hf, hr, h⟩ | ⟨hf, hr, h, hone⟩ := append_of_room ⟨hlen, hfull, hflag⟩ (by omega) age x
    case inl =>
      have hplaces := room_joined (U := U) (ln := ln) (by omega) x (ln.timerAfter age)
      obtain ⟨units, left, hrest⟩ := ih (ln := joined ln x (ln.timerAfter age))
        ⟨by simp; omega, by simp; omega, hflag⟩ (by omega)
      exact ⟨units, left, hrest.cons_joined hf h⟩
    case inr.inl =>
      have hplaces : ln.room U = (sealedFull ln (fullUnit ln x)).room U + 1 := by
        rw [room_sealed hr, room_eq, if_pos hr]
        omega
      obtain ⟨units, left, hrest⟩ := ih (ln := sealedFull ln (fullUnit ln x))
        ⟨by simp [sealedFull], by simp [sealedFull]; omega, fun hp => absurd (hflag hp) (by omega)⟩ (by omega)
      exact ⟨_, left, hrest.cons_sealed hf hr h⟩
    case inr.inr =>
      obtain rfl : xs = [] := List.length_eq_zero_iff.mp (by omega)
      exact ⟨_, _, placed_waiting hf hr h⟩

/-- Settles O27: the sectors are placed one by one, each joining, filling or filling and waiting. -/
theorem appendPlaces : Obligations.AppendPlaces := by
  intro U age ln xs
  refine ⟨room_eq U ln, fun hU ⟨hfull, hflag, _⟩ hlen hroom => ?_⟩
  obtain ⟨units, left, h⟩ := placed_of_room (age := age) hU
    ⟨hlen, fun h => hfull (Nat.le_of_eq h.symm), fun hp => (hflag hp).2⟩ hroom
  exact ⟨units, left, _, h.lane, h.order, h.whole, h.bound, h.fits, h.waits, rfl⟩

end Sys2Proof.Proofs
end

section
/-! SUPPORT. Taking a WRITE or a RELOCATE (R50, R53, R57), and the requests for a read-only or an unknown table
(R64, R65, R167). -/

namespace Sys2Proof.Proofs
open Sys2Proof Sys2Proof.Machine Sys2Proof.Laws

/-! ## Records taken -/

/-- A WRITE that is next: its mode check and its tag check, in the state that has taken it (R53). -/
theorem exec_write_next {s : State} {w : WriteRec} {rest : List FrontRec} (h : s.FrontIsNext (.write w) rest) :
    exec .write s = .next (State.latchLevels
      (if s.mode ≠ .run then refuseWrite w .power (s.frontTaken rest)
       else if (s.frontTags.get w.tag).inUse then refuseWrite w .tagInUse (s.frontTaken rest)
       else { s.frontTaken rest with inHand := some (.write w) })) := by
  obtain ⟨hnext, htaken, hwork, _⟩ := FrontIsNext_taken h
  rw [show exec .write s = execWrite s from rfl, execWrite, hnext]
  dsimp only
  rw [htaken, commit_some hwork]
  rfl

/-- A RELOCATE that is next: its mode check and its tag check, in the state that has taken it (R57). -/
theorem exec_relocate_next {s : State} {x : RelocateRec} {rest : List RelocateRec} (h : s.RelocIsNext x rest) :
    exec .relocate s = .next (State.latchLevels
      (if s.mode ≠ .run then refuseRelocate x .power { s with relocQueue := rest, shareCount := 0 }
       else if (s.relocTags.get x.tag).inUse then
         refuseRelocate x .tagInUse { s with relocQueue := rest, shareCount := 0 }
       else { s with relocQueue := rest, shareCount := 0, inHand := some (.relocate x) })) := by
  obtain ⟨hnext, _, htaken, hwork⟩ := RelocIsNext_taken h
  rw [show exec .relocate s = execRelocate s from rfl, execRelocate, hnext]
  dsimp only
  rw [htaken, commit_some hwork]

/-- The command of a queue whose record is not next is spent. -/
theorem exec_write_spent {s : State} (h : s.nextFront = none) : exec .write s = .next s := by
  rw [show exec .write s = execWrite s from rfl, execWrite, h, commit_none]

theorem exec_relocate_spent {s : State} (h : s.nextReloc = none) : exec .relocate s = .next s := by
  rw [show exec .relocate s = execRelocate s from rfl, execRelocate, h, commit_none]

/-- Settles O22: a record that is next meets the mode check and then the tag check, and leaves the other queue
without a record that is next. -/
theorem intakeChecks : Obligations.IntakeChecks := by
  intro s
  refine ⟨fun w rest h => ⟨fun hm => ?writePower, fun hm ht => ?writeTagInUse, fun hm ht => ?writeInHand, ?relocateSpent⟩,
    fun x rest h => ⟨fun hm => ?relocPower, fun hm ht => ?relocTagInUse, fun hm ht => ?relocInHand, ?writeSpent⟩⟩
  case writePower => rw [exec_write_next h, if_pos hm]; rfl
  case writeTagInUse => rw [exec_write_next h, if_neg (not_not.mpr hm), if_pos ht]; rfl
  case writeInHand => rw [exec_write_next h, if_neg (not_not.mpr hm), if_neg (by simp [ht])]
  case relocateSpent => exact exec_relocate_spent (FrontIsNext_nextReloc h)
  case relocPower => rw [exec_relocate_next h, if_pos hm]; rfl
  case relocTagInUse => rw [exec_relocate_next h, if_neg (not_not.mpr hm), if_pos ht]; rfl
  case relocInHand => rw [exec_relocate_next h, if_neg (not_not.mpr hm), if_neg (by simp [ht])]
  case writeSpent =>
    obtain ⟨_, hnone, _⟩ := RelocIsNext_taken h
    exact exec_write_spent hnone

/-! ## Read-only and unknown tables -/

/-- The codes 0 and above 8 name no table (R173). -/
theorem tableOfCode_unknown {code : Byte} (h : code = 0 ∨ 8 < code.toNat) : tableOfCode code = none := by
  unfold tableOfCode
  obtain rfl | h := h
  · rfl
  · split
    case h_9 => rfl
    all_goals omega

/-- The codes 4 to 8 name the read-only tables, with their sizes (R167, R173). -/
theorem tableOfCode_readOnly {code : Byte} {size : Nat}
    (h : (code.toNat, size) ∈ [(4, 48), (5, 624), (6, 4096), (7, 512), (8, 1)]) :
    ∃ t, tableOfCode code = some t ∧ writable t = false ∧ tableSize t = size := by
  simp only [List.mem_cons, Prod.mk.injEq, List.not_mem_nil, or_false] at h
  obtain ⟨hc, rfl⟩ | ⟨hc, rfl⟩ | ⟨hc, rfl⟩ | ⟨hc, rfl⟩ | ⟨hc, rfl⟩ := h <;>
    simp [tableOfCode, hc, writable, tableSize]

/-- Settles O21: the code names no table, or a read-only one. -/
theorem tableWriteRefused : Obligations.TableWriteRefused := by
  intro s id index code rest req fields h
  refine ⟨fun hcode hreq => ?unknown, fun size hsize hreq => ?readOnly⟩
  case unknown =>
    obtain rfl | rfl := hreq <;>
    · rw [show exec .tableWrite s = execTableWrite s from rfl, execTableWrite, onAdmin_next h]
      dsimp only
      rw [tableOfCode_unknown hcode, commit_some h.1]
      rfl
  case readOnly =>
    subst hreq
    obtain ⟨t, ht, hread, rfl⟩ := tableOfCode_readOnly hsize
    rw [show exec .tableWrite s = execTableWrite s from rfl, execTableWrite, onAdmin_next h]
    dsimp only
    rw [ht]
    dsimp only
    rw [hread, if_neg Bool.false_ne_true]
    split <;> exact commit_some h.1 _

end Sys2Proof.Proofs
end

section
/-! SUPPORT. The laws of the lanes (R69, R71, R73 to R77, R89, R90, R92, R100, R102, R108, R110, R111, R128): what each
move of a lane does to its units, to its state and to its next unit index. -/

namespace Sys2Proof.Proofs
open Sys2Proof Sys2Proof.Machine

/-! ## What the laws ask of one lane -/

/-- A sealed unit of a lane: whole, at an attempt from 1 to 3, its sectors of the lane's owner (R71, R89, R128). -/
structure SoundUnit (U : Nat) (owner : Option GroupId) (es : List Entry) (attempt : Nat) : Prop where
  whole    : WholeUnit U es
  attempts : 1 ≤ attempt ∧ attempt ≤ 3
  owned    : ∀ x, .sector x ∈ es → owner = some x.group

/-- What the laws say of the units of a lane while an issue is under way: a full or flagged filling unit need not
wait (R71, R73, R75, R89). -/
structure UnitsSound (U : Nat) (ln : Lane) : Prop where
  fits    : ln.filling.length ≤ U
  flagged : ln.sealPending = true → ln.filling ≠ []
  timed   : ln.sealAge ≠ none → ln.filling ≠ [] ∧ ln.filling.length < U ∧ ln.sealPending = false
  owned   : ∀ x ∈ ln.filling, ln.owner = some x.group
  ready   : ∀ u ∈ ln.ready, SoundUnit U ln.owner u.entries u.attempt
  issued  : ∀ u ∈ ln.outstanding, SoundUnit U ln.owner u.entries u.attempt
  slots   : ln.outstanding.length ≤ 4 ∧ ln.ready.length + ln.outstanding.length ≤ 8

/-- What the laws say of the units of a lane: a full or flagged filling unit stands only behind 4 ready units (R74,
R77). -/
structure Assembled (U : Nat) (ln : Lane) : Prop extends UnitsSound U ln where
  waits : U ≤ ln.filling.length ∨ ln.sealPending = true → 4 ≤ ln.ready.length

/-- The law of one lane's next unit index (R108, R110). -/
def IndexBelow (per : Nat) (ln : Lane) : Prop := ln.nextIndex < per ∧ (ln.current = none → ln.nextIndex = 0)

/-- The laws of the lanes, of one lane under the settings. -/
structure LaneLawful (st : Settings) (ln : Lane) : Prop where
  state : ln.StateLaw
  units : Assembled st.unitSize ln
  index : IndexBelow st.unitsPerBlock ln

theorem mem_sectors {ln : Lane} {x : Sector} : x ∈ ln.sectors ↔
    (∃ u ∈ ln.outstanding, .sector x ∈ u.entries) ∨ (∃ u ∈ ln.ready, .sector x ∈ u.entries) ∨ x ∈ ln.filling := by
  have hunits : .sector x ∈ ln.outstanding.flatMap Issued.entries ++ ln.ready.flatMap SealedUnit.entries ↔
      (∃ u ∈ ln.outstanding, .sector x ∈ u.entries) ∨ ∃ u ∈ ln.ready, .sector x ∈ u.entries := by
    simp only [List.mem_append, List.mem_flatMap]
  rw [← or_assoc, ← hunits, Lane.sectors, List.mem_append]
  refine or_congr_left ⟨fun h => ?_, fun h => List.mem_filterMap.mpr ⟨_, h, rfl⟩⟩
  obtain ⟨_ | _, he, hx⟩ := List.mem_filterMap.mp h <;> cases hx
  exact he

/-- The laws of the lanes are these laws of every lane. -/
theorem lanesLaws_iff (s : State) :
    (s.LaneLaw ∧ (∀ l, (s.lanes.get l).ReadyLaw) ∧ s.OwnerLaw ∧ s.IndexLaw)
      ↔ ∀ l, LaneLawful s.settings (s.lanes.get l) := by
  constructor
  · rintro ⟨hlane, hready, howner, hindex⟩ l
    obtain ⟨hstate, ⟨hfull, hflag, htimer⟩, hfits, hr, ho⟩ := hlane l
    obtain ⟨_, hslots⟩ := hready l
    have hsectors := fun x hx => howner l x (mem_sectors.mpr hx)
    exact ⟨hstate, ⟨⟨hfits, fun h => (hflag h).1, htimer, fun x hx => hsectors x (.inr (.inr hx)),
      fun u hu => ⟨(hr u hu).1, (hr u hu).2, fun x hx => hsectors x (.inr (.inl ⟨u, hu, hx⟩))⟩,
      fun u hu => ⟨(ho u hu).1, (ho u hu).2, fun x hx => hsectors x (.inl ⟨u, hu, hx⟩)⟩, hslots⟩,
      fun h => h.elim hfull fun h => (hflag h).2⟩, hindex l⟩
  · intro h
    refine ⟨fun l => ⟨(h l).state, ?wait, ?unit⟩, fun l => ?ready, fun l x hx => ?owner, fun l => (h l).index⟩
    all_goals have hu := (h l).units
    case wait =>
      exact ⟨fun hf => hu.waits (.inl hf), fun hp => ⟨hu.flagged hp, hu.waits (.inr hp)⟩, hu.timed⟩
    case unit =>
      exact ⟨hu.fits, fun u hm => ⟨(hu.ready u hm).whole, (hu.ready u hm).attempts⟩,
        fun u hm => ⟨(hu.issued u hm).whole, (hu.issued u hm).attempts⟩⟩
    case ready =>
      obtain ⟨h4, h8⟩ := hu.slots
      exact ⟨by omega, h4, h8⟩
    case owner =>
      obtain ⟨u, hm, hx⟩ | ⟨u, hm, hx⟩ | hx := mem_sectors.mp hx
      · exact (hu.issued u hm).owned x hx
      · exact (hu.ready u hm).owned x hx
      · exact hu.owned x hx

/-! ## The units of a lane -/

section units
variable {U : Nat} {a b : Lane}

/-- The fields of a lane that its units' laws read. -/
def SameUnits (a b : Lane) : Prop :=
  b.filling = a.filling ∧ b.sealAge = a.sealAge ∧ b.sealPending = a.sealPending ∧ b.requeued = a.requeued
    ∧ b.fresh = a.fresh ∧ b.outstanding = a.outstanding ∧ b.owner = a.owner

theorem UnitsSound.congr (h : UnitsSound U a) (hab : SameUnits a b) : UnitsSound U b := by
  obtain ⟨hf, ht, hp, hq, hfr, ho, hw⟩ := hab
  have hr : b.ready = a.ready := by rw [Lane.ready, hq, hfr]; rfl
  obtain ⟨h1, h2, h3, h4, h5, h6, h7⟩ := h
  constructor <;> simp only [hf, ht, hp, hr, ho, hw] <;> assumption

theorem Assembled.congr (h : Assembled U a) (hab : SameUnits a b) : Assembled U b := by
  obtain ⟨hf, _, hp, hq, hfr, _⟩ := id hab
  exact ⟨h.toUnitsSound.congr hab, by rw [Lane.ready, hf, hp, hq, hfr]; exact h.waits⟩

/-- A lane whose filling unit is empty has neither a timer nor a flag for it. -/
theorem UnitsSound.of_noFilling (h : UnitsSound U a) (hf : a.filling = []) :
    a.sealAge = none ∧ a.sealPending = false := by
  constructor
  · by_contra ht
    exact (h.timed ht).1 hf
  · rw [← Bool.not_eq_true]
    exact fun hp => h.flagged hp hf

/-- A lane that holds no entries at all. -/
theorem Assembled.of_empty (hU : 0 < U) (hf : a.filling = []) (hr : a.ready = []) (ho : a.outstanding = [])
    (ht : a.sealAge = none) (hp : a.sealPending = false) : Assembled U a := by
  refine ⟨⟨?_, ?_, ?_, ?_, ?_, ?_, ?_⟩, ?_⟩ <;> simp [hf, hr, ho, ht, hp]
  omega

/-- Stopping the seal-age timer asks nothing of the units (R76). -/
theorem Assembled.stopTimer (h : Assembled U a) : Assembled U { a with sealAge := none } :=
  { h with timed := fun ht => absurd rfl ht }

/-- The unit that sealing makes of a filling unit (R69, R79). -/
theorem UnitsSound.sealed (h : UnitsSound U a) (hf : a.filling ≠ []) : SoundUnit U a.owner
    (a.filling.map .sector ++ List.replicate (U - a.filling.length) .pad) 1 where
  whole := ⟨a.filling, hf, h.fits, rfl⟩
  attempts := by omega
  owned x hx := h.owned x (by simpa using hx)

theorem UnitsSound.sealFilling (h : UnitsSound U a) (hU : 0 < U) (hf : a.filling ≠ []) (hr : a.ready.length < 4) :
    Assembled U (a.sealFilling U) where
  fits := by simp
  flagged := by simp
  timed := by simp
  owned := by simp
  ready u hu := by
    simp only [sealFilling_ready, List.mem_append, List.mem_singleton, sealFilling_frame] at hu ⊢
    obtain hu | rfl := hu
    · exact h.ready u hu
    · exact h.sealed hf
  issued := by simpa using h.issued
  slots := by
    have hslots := h.slots
    simp only [sealFilling_ready, sealFilling_frame, List.length_append, List.length_singleton]
    omega
  waits := by simp; omega

/-- The filling unit sealed, flagged or left keeps the laws of the units (R76, R80, R81). -/
theorem Assembled.sealOrFlag (h : Assembled U a) (hU : 0 < U) : Assembled U (a.sealOrFlag U) := by
  obtain ⟨he, _⟩ | ⟨hf, hr, he⟩ | ⟨hf, hr, _, he⟩ := sealOrFlag_cases a U <;> rw [he]
  · exact h
  · exact h.toUnitsSound.sealFilling hU hf hr
  · exact { h with flagged := fun _ => hf, timed := fun ht => absurd rfl ht, waits := fun _ => hr }

/-- An issue seals what need not wait any longer (R83 stage 7). -/
theorem UnitsSound.sealWaiting (h : UnitsSound U a) (hU : 0 < U) : Assembled U (a.sealWaiting U) := by
  obtain ⟨hf, hr, _, he⟩ | ⟨hn, he⟩ := sealWaiting_cases a U <;> rw [he]
  · exact h.sealFilling hU hf hr
  · refine ⟨h, fun hw => ?_⟩
    have hf : a.filling ≠ [] := hw.elim (fun hlen => List.ne_nil_of_length_pos (by omega)) h.flagged
    by_contra hr
    exact hn ⟨hf, by omega, hw⟩

@[simp] theorem sent_ready (ln : Lane) (n : Nat) (u : SealedUnit) (k : BlockAddr) (again : Bool) :
    (ln.sent n u k again).ready = ln.ready := rfl

@[simp] theorem sent_outstanding (ln : Lane) (n : Nat) (u : SealedUnit) (k : BlockAddr) (again : Bool) :
    (ln.sent n u k again).outstanding = ln.outstanding ++ [⟨u.entries, k, ln.nextIndex, u.attempt, again, n⟩] := rfl

/-- A unit sent leaves the ready queue for the outstanding list (R83). -/
theorem UnitsSound.sent {u : SealedUnit} (h : UnitsSound U a) (hp : a.popReady = some (u, b))
    (ho : a.outstanding.length < 4) (timeout : Nat) (k : BlockAddr) (again : Bool) :
    UnitsSound U (b.sent timeout u k again) := by
  have hready := popReady_some hp
  obtain ⟨q, f, rfl⟩ := popReady_changes hp
  obtain ⟨h1, h2, h3, h4, h5, h6, _, h8⟩ := h
  rw [hready, List.length_cons] at h8
  rw [hready, List.forall_mem_cons] at h5
  refine ⟨h1, h2, h3, h4, h5.2, fun v hv => ?_, ?_⟩
  · obtain hv | hv := List.mem_append.mp hv
    · exact h6 v hv
    · rw [List.mem_singleton.mp hv]
      exact h5.1
  · rw [sent_ready, sent_outstanding, List.length_append, List.length_singleton]
    dsimp only
    omega

/-- A unit that leaves the outstanding list frees its slot (R121). -/
theorem Assembled.lift {us vs : List Issued} {u : Issued} (h : Assembled U a) (ho : a.outstanding = us ++ u :: vs) :
    Assembled U { a with outstanding := us ++ vs } ∧ SoundUnit U a.owner u.entries u.attempt
      ∧ (us ++ vs).length < 4 ∧ a.ready.length + (us ++ vs).length < 8 := by
  have hslots := h.slots
  have hlen : a.outstanding.length = (us ++ vs).length + 1 := by rw [ho]; simp; omega
  have hmem : ∀ v ∈ us ++ vs, v ∈ a.outstanding := fun v hv => by
    rw [ho]
    simp only [List.mem_append, List.mem_cons] at hv ⊢
    tauto
  have hshort : (us ++ vs).length < 4 := by omega
  have hfree : a.ready.length + (us ++ vs).length < 8 := by omega
  exact ⟨{ h with issued := fun v hv => h.issued v (hmem v hv), slots := ⟨hshort.le, hfree.le⟩ },
    h.issued u (by rw [ho]; simp), hshort, hfree⟩

/-- A unit that returns to the ready queue takes a free place of it (R73, R128). -/
theorem Assembled.requeue {u : Issued} {n : Nat} (h : Assembled U a) (hu : SoundUnit U a.owner u.entries n)
    (hfree : a.ready.length + a.outstanding.length < 8) : Assembled U (a.requeue u n) := by
  have hready : ∀ v, v ∈ (a.requeue u n).ready ↔ v ∈ a.ready ∨ v = ⟨u.entries, n⟩ := fun v => by
    simp only [Lane.requeue, Lane.ready, List.mem_append, List.mem_singleton]
    tauto
  have hlen : (a.requeue u n).ready.length = a.ready.length + 1 := by
    simp [Lane.requeue, Lane.ready]; omega
  refine { h with ready := fun v hv => ?_, slots := ⟨h.slots.1, ?_⟩, waits := fun hw => ?_ }
  · obtain hv | rfl := (hready v).mp hv
    · exact h.ready v hv
    · exact hu
  · rw [hlen]
    change _ + a.outstanding.length ≤ 8
    omega
  · rw [hlen]
    have := h.waits hw
    omega

/-- A lane that has entered FAULT holds its outstanding units alone (R100). -/
theorem Assembled.faulted (h : Assembled U a) (hU : 0 < U) (n : Nat) : Assembled U (a.faulted n) := by
  have hslots := h.slots
  rw [faulted_eq]
  refine ⟨⟨?_, ?_, ?_, ?_, ?_, h.issued, ?_⟩, ?_⟩ <;> simp [Lane.ready] <;> omega

theorem sameUnits_seek (mark : Nat) (a : Lane) : SameUnits a (a.seek mark) := by simp [SameUnits]
theorem sameUnits_advanced (per mark : Nat) (a : Lane) : SameUnits a (a.advanced per mark) := by simp [SameUnits]
theorem sameUnits_emptied (a : Lane) : SameUnits a a.emptied := by
  unfold Lane.emptied
  split <;> simp [SameUnits]

end units

/-! ## The state of a lane -/

section state
variable {U : Nat} {a b : Lane}

theorem holdsWork_iff : a.holdsWork = true ↔ a.filling ≠ [] ∨ a.ready ≠ [] ∨ a.outstanding ≠ [] := by
  simp [Lane.holdsWork, Lane.ready, or_assoc, imp_iff_not_or]

theorem holdsWork_eq_false : a.holdsWork = false ↔ a.filling = [] ∧ a.ready = [] ∧ a.outstanding = [] := by
  rw [← Bool.not_eq_true, holdsWork_iff]
  simp only [not_or, not_not]

/-- The states in which a lane assembles units (R60, R97). -/
def Assembling (ln : Lane) : Prop := ln.state = .opening ∨ ln.state = .opened ∨ ln.state = .draining

/-- What a DRAINING lane shows besides the rest of a working lane: no timer, and work (R95, R97). -/
def DrainHolds (ln : Lane) : Prop := ln.state = .draining → ln.sealAge = none ∧ ln.holdsWork = true

/-- The law of a lane that is OPEN or DRAINING. -/
theorem stateLaw_working (hs : a.state = .opened ∨ a.state = .draining) : a.StateLaw ↔
    a.owner ≠ none ∧ (a.current = none → a.reserve = []) ∧ a.residency = .stopped ∧ DrainHolds a := by
  obtain hs | hs := hs <;> simp [Lane.StateLaw, DrainHolds, hs]

/-- What an assembling lane shows in each of its states. -/
theorem Assembling.law (hs : Assembling a) (h : a.StateLaw) : a.owner ≠ none ∧ a.residency = .stopped
    ∧ (a.current = none → a.reserve = []) ∧ (a.state = .opening → a.outstanding = [] ∧ a.current = none)
    ∧ DrainHolds a := by
  obtain hs | hs | hs := hs <;> simp_all [Lane.StateLaw, DrainHolds]

/-- An assembling lane meets its law when it shows as much. -/
theorem Assembling.stateLaw (hs : Assembling a) (ho : a.owner ≠ none) (hr : a.residency = .stopped)
    (hc : a.current = none → a.reserve = []) (hopening : a.state = .opening → a.outstanding = [] ∧ a.current = none)
    (hd : DrainHolds a) : a.StateLaw := by
  obtain hs | hs | hs := hs <;> simp_all [Lane.StateLaw, DrainHolds]

/-- Only an assembling lane holds filling entries. -/
theorem assembling_of_filling (h : a.StateLaw) (hf : a.filling ≠ []) : Assembling a := by
  cases hs : a.state <;> simp_all [Lane.StateLaw, Assembling]

/-- A change of what waits in an assembling lane leaves its state lawful. -/
theorem Assembling.keep (hs : Assembling a) (h : a.StateLaw)
    (hab : b.state = a.state ∧ b.owner = a.owner ∧ b.outstanding = a.outstanding ∧ b.current = a.current
      ∧ b.reserve = a.reserve ∧ b.residency = a.residency) (hd : DrainHolds b) : b.StateLaw := by
  obtain ⟨hstate, howner, hout, hcur, hres, hresid⟩ := hab
  obtain ⟨ho, hr, hc, hopening, _⟩ := hs.law h
  exact Assembling.stateLaw (by simpa [Assembling, hstate] using hs) (by rwa [howner]) (by rwa [hresid])
    (by rwa [hcur, hres]) (by rwa [hstate, hout, hcur]) hd

theorem stateLaw_stopTimer (h : a.StateLaw) : Lane.StateLaw { a with sealAge := none } := by
  cases hs : a.state <;> simp_all [Lane.StateLaw, Lane.ready, Lane.holdsWork]

theorem stateLaw_sealFilling (h : a.StateLaw) (hf : a.filling ≠ []) (U : Nat) : (a.sealFilling U).StateLaw :=
  (assembling_of_filling h hf).keep h (by simp) fun _ => ⟨by simp, holdsWork_iff.mpr (.inr (.inl (by simp)))⟩

/-- The filling unit sealed, flagged or left keeps the law of the lane's state. -/
theorem stateLaw_sealOrFlag (h : a.StateLaw) (U : Nat) : (a.sealOrFlag U).StateLaw := by
  obtain ⟨he, _⟩ | ⟨hf, _, he⟩ | ⟨hf, _, _, he⟩ := sealOrFlag_cases a U <;> rw [he]
  · exact h
  · exact stateLaw_sealFilling h hf U
  · exact (assembling_of_filling h hf).keep h (by simp) fun _ => ⟨rfl, holdsWork_iff.mpr (.inl hf)⟩

theorem stateLaw_sealWaiting (h : a.StateLaw) (U : Nat) : (a.sealWaiting U).StateLaw := by
  obtain ⟨hf, _, _, he⟩ | ⟨_, he⟩ := sealWaiting_cases a U <;> rw [he]
  · exact stateLaw_sealFilling h hf U
  · exact h

/-- A lane that has sought a block has one, or an empty stack (R111). -/
theorem stateLaw_seek (hs : Assembling a) (ho : a.owner ≠ none) (hr : a.residency = .stopped)
    (hopening : a.state = .opening → a.outstanding = [] ∧ a.current = none) (hd : DrainHolds a) (mark : Nat) :
    (a.seek mark).StateLaw := by
  have hwork : (a.seek mark).holdsWork = a.holdsWork := by simp [Lane.holdsWork]
  obtain ⟨hn, he⟩ | ⟨_, hempty, he⟩ | ⟨b, rest, _, _, hcur, _, _, hstate⟩ := seek_cases a mark
  · have hcur : a.current ≠ none := fun hc => by
      obtain hs | hs | hs := hs <;> simp [Lane.needsBlock, hs, hc] at hn
    rw [he]
    exact hs.stateLaw ho hr (fun hc => absurd hc hcur) hopening hd
  · rw [he]
    exact Assembling.stateLaw (a := { a with want := true }) hs ho hr (fun _ => hempty) hopening hd
  · have hworks : (a.seek mark).state = .opened ∨ (a.seek mark).state = .draining := by
      rw [hstate]
      obtain hs | hs | hs := hs <;> simp [hs]
    refine (stateLaw_working hworks).mpr ⟨by simpa using ho, by simp [hcur], by simpa using hr, fun hdr => ?_⟩
    rw [hwork]
    simp only [seek_frame]
    refine hd ?_
    rw [hstate] at hdr
    split at hdr <;> simp_all

/-- A working lane whose block has taken a unit, or is complete and the next one sought (R83, R112). -/
theorem stateLaw_advanced (hs : a.state = .opened ∨ a.state = .draining) (h : a.StateLaw) (per mark : Nat) :
    (a.advanced per mark).StateLaw := by
  obtain ⟨ho, _, hr, hd⟩ := (stateLaw_working hs).mp h
  unfold Lane.advanced
  split
  · exact stateLaw_seek (a := { a.dropBlock with blocksCompleted := a.blocksCompleted + 1 }) (.inr hs) ho hr
      (fun hopen => by simp [show a.state = .opening from hopen] at hs) hd mark
  · exact h

/-- A lane in FAULT that a unit has left hands back its block once nothing is outstanding (R102). -/
theorem stateLaw_emptied (h : a.StateLaw) (hs : a.state = .fault) (rest : List Issued) :
    (Lane.emptied { a with outstanding := rest }).StateLaw := by
  unfold Lane.emptied
  split <;> simp_all [Lane.StateLaw, Lane.ready, Lane.dropBlock]

/-- FAULT entry from a lane with an owner (R100, R102). -/
theorem stateLaw_faulted (ho : a.owner ≠ none) (n : Nat) : (a.faulted n).StateLaw := by
  rw [faulted_eq]
  simp only [Lane.StateLaw, Lane.ready]
  simp +contextual [ho]

/-- The check for drain completion leaves a lane that works, or a CLOSED one (R97). -/
theorem stateLaw_checked (hu : UnitsSound U a) (hs : a.state = .opened ∨ a.state = .draining) (ho : a.owner ≠ none)
    (hr : a.residency = .stopped) (hc : a.current = none → a.reserve = [])
    (hd : a.state = .draining → a.sealAge = none) : a.checked.StateLaw := by
  unfold Lane.checked
  split
  · next h =>
    obtain ⟨hf, hready, hout⟩ := holdsWork_eq_false.mp h.2
    obtain ⟨ht, hp⟩ := hu.of_noFilling hf
    exact ⟨rfl, hf, hready, hout, rfl, rfl, rfl, ht, hp, hr⟩
  · next h => exact (stateLaw_working hs).mpr ⟨ho, hc, hr, fun hdr => ⟨hd hdr, by simpa [hdr] using h⟩⟩

/-- Drain completion leaves a lane without entries (R97). -/
theorem Assembled.checked (h : Assembled U a) (hU : 0 < U) : Assembled U a.checked := by
  unfold Lane.checked
  split
  · next hdone =>
    obtain ⟨hf, hready, hout⟩ := holdsWork_eq_false.mp hdone.2
    obtain ⟨ht, hp⟩ := h.of_noFilling hf
    exact .of_empty hU hf hready hout ht hp
  · exact h

/-! ## The next unit index -/

variable {per : Nat}

theorem IndexBelow.congr (h : IndexBelow per a) (hi : b.nextIndex = a.nextIndex) (hc : b.current = a.current) :
    IndexBelow per b := by
  unfold IndexBelow
  rw [hi, hc]
  exact h

theorem IndexBelow.of_zero (hper : 0 < per) (hi : a.nextIndex = 0) : IndexBelow per a := ⟨by omega, fun _ => hi⟩

/-- A block sought starts at index 0 (R111). -/
theorem IndexBelow.seek (h : IndexBelow per a) (mark : Nat) : IndexBelow per (a.seek mark) := by
  obtain ⟨_, he⟩ | ⟨_, _, he⟩ | ⟨_, _, _, _, _, hi, _⟩ := seek_cases a mark
  · rwa [he]
  · exact h.congr (by rw [he]) (by rw [he])
  · exact .of_zero (by have := h.1; omega) hi

theorem IndexBelow.emptied (h : IndexBelow per a) : IndexBelow per a.emptied := by
  unfold Lane.emptied
  split
  · exact .of_zero (by have := h.1; omega) rfl
  · exact h

theorem IndexBelow.faulted (h : IndexBelow per a) (n : Nat) : IndexBelow per (a.faulted n) :=
  IndexBelow.emptied (h.congr rfl rfl)

theorem IndexBelow.checked (h : IndexBelow per a) : IndexBelow per a.checked := by
  unfold Lane.checked
  split
  · exact .of_zero (by have := h.1; omega) rfl
  · exact h

/-- The index rises below the units of a block, or starts again at 0 (R83, R112). -/
theorem IndexBelow.advanced (h : IndexBelow per a) (hc : a.current ≠ none) (mark : Nat) :
    IndexBelow per (a.advanced per mark) := by
  unfold Lane.advanced
  split
  · exact IndexBelow.seek (.of_zero (by have := h.1; omega) rfl) mark
  · exact ⟨by dsimp only; omega, fun hn => absurd hn hc⟩

end state

/-! ## Placement -/

section place
variable {U age : Nat} {ln : Lane} {xs : List Sector} {units : List SealedUnit} {left : List Sector}

/-- Every unit that placed sectors fill is whole, of attempt 1, and holds sectors of the filling unit or of the
record alone (R69, R74). -/
theorem Placed.sound (h : Placed U age ln xs units left) (hU : 0 < U) {owner : Option GroupId}
    (ho : ∀ x ∈ ln.filling ++ xs, owner = some x.group) : ∀ u ∈ units, SoundUnit U owner u.entries u.attempt := by
  intro u hu
  obtain ⟨hlen, hattempt⟩ := h.whole u hu
  have hfrom : ∀ e ∈ u.entries, ∃ x ∈ ln.filling ++ xs, Entry.sector x = e := fun e he => by
    rw [← List.mem_map, ← h.order]
    exact List.mem_append_left _ (List.mem_flatMap.mpr ⟨u, hu, he⟩)
  obtain ⟨ys, hys⟩ : u.entries ∈ Set.range (List.map Entry.sector) := by
    rw [Set.range_list_map]
    exact fun e he => (hfrom e he).imp fun _ hx => hx.2
  have hysLen : ys.length = U := by rw [← hlen, ← hys, List.length_map]
  refine ⟨⟨ys, List.ne_nil_of_length_pos (by omega), hysLen.le, by simp [hys, hysLen]⟩, by omega, fun x hx => ?_⟩
  obtain ⟨y, hy, he⟩ := hfrom _ hx
  cases he
  exact ho x hy

/-- Over a flagged filling unit nothing is sealed (R77). -/
theorem Placed.flagged (h : Placed U age ln xs units left) (hr : 4 ≤ ln.ready.length) :
    units = [] ∧ left = ln.filling ++ xs := by
  have hbound := h.bound
  obtain rfl : units = [] := List.length_eq_zero_iff.mp (by omega)
  exact ⟨rfl, List.map_injective_iff.mpr (fun _ _ he => Entry.sector.inj he) (by simpa using h.order)⟩

/-- Sectors placed within the room keep the laws of the units (R59, R60, R74, R75). -/
theorem Assembled.place (h : Assembled U ln) (hU : 0 < U) (hroom : xs.length ≤ ln.room U)
    (ho : ∀ x ∈ xs, ln.owner = some x.group) (age : Nat) : Assembled U (ln.appendAll U age xs) := by
  have hfill : FullWaits U ln :=
    ⟨h.fits, fun hf => h.waits (.inl hf.ge), fun hp => h.waits (.inr hp)⟩
  obtain ⟨units, left, hp⟩ := placed_of_room (age := age) hU hfill hroom
  have howned : ∀ x ∈ ln.filling ++ xs, ln.owner = some x.group := fun x hx =>
    (List.mem_append.mp hx).elim (h.owned x) (ho x)
  have hleft : ∀ x ∈ left, x ∈ ln.filling ++ xs := fun x hx => by
    have hm : Entry.sector x ∈ (ln.filling ++ xs).map .sector := by
      rw [← hp.order]
      exact List.mem_append_right _ (List.mem_map_of_mem hx)
    obtain ⟨y, hy, he⟩ := List.mem_map.mp hm
    cases he
    exact hy
  have hflag : ln.sealPending = true → units = [] ∧ left ≠ [] ∧ ln.filling ≠ [] := fun hf => by
    obtain ⟨hnone, hall⟩ := hp.flagged (h.waits (.inr hf))
    exact ⟨hnone, by simp [hall, h.flagged hf], h.flagged hf⟩
  have hready : Lane.ready { ln with
      filling := left, fresh := ln.fresh ++ units, sealAge := placedTimer U age ln xs units left } =
      ln.ready ++ units := by
    simp [Lane.ready]
  have hbound := hp.bound
  have hslots := h.slots
  have hfits := hp.fits
  rw [hp.lane]
  refine ⟨⟨hfits, fun hf => (hflag hf).2.1, fun ht => ?timed, fun x hx => howned x (hleft x hx), ?ready, h.issued,
    ?slots⟩, ?waits⟩
  case timed =>
    by_cases hx : xs = []
    · subst hx
      obtain ⟨rfl, rfl⟩ := hp.of_nil
      exact h.timed (by simpa [placedTimer] using ht)
    · dsimp only at ht ⊢
      rw [placedTimer, if_neg hx] at ht
      split at ht
      · exact absurd rfl ht
      · next hl =>
        refine ⟨fun he => hl (.inl he), by omega, ?_⟩
        rw [← Bool.not_eq_true]
        intro hf
        obtain ⟨hnone, _, hne⟩ := hflag hf
        rw [if_pos ⟨hnone, hne⟩] at ht
        exact hne ((h.timed ht).2.2.symm.trans hf |> Bool.false_ne_true.elim)
  case ready =>
    rw [hready]
    intro u hu
    exact (List.mem_append.mp hu).elim (h.ready u) (hp.sound hU howned u)
  case slots =>
    rw [hready, List.length_append]
    dsimp only
    omega
  case waits =>
    rw [hready, List.length_append]
    rintro (hf | hf)
    · exact hp.waits (Nat.le_antisymm hfits hf)
    · have := h.waits (.inr hf)
      omega

end place

/-! ## The moves of a lane -/

section lane
variable {st : Settings} {a b : Lane}

theorem unitSize_pos (hst : st.Lawful) : 0 < st.unitSize := by
  obtain ⟨h | h | h, _⟩ := hst <;> omega

theorem unitsPerBlock_pos (hst : st.Lawful) : 0 < st.unitsPerBlock := by
  obtain ⟨_, ⟨h, _⟩, _⟩ := hst
  omega

/-- An expiry, a flush or a drain of the filling unit leaves the block alone (R76, R80, R81). -/
@[simp] theorem sealOrFlag_supply (ln : Lane) (U : Nat) : (ln.sealOrFlag U).current = ln.current
    ∧ (ln.sealOrFlag U).nextIndex = ln.nextIndex ∧ (ln.sealOrFlag U).reserve = ln.reserve
    ∧ (ln.sealOrFlag U).residency = ln.residency := by
  obtain ⟨h, _⟩ | ⟨_, _, h⟩ | ⟨_, _, _, h⟩ := sealOrFlag_cases ln U <;> simp [h]

@[simp] theorem sealWaiting_supply (ln : Lane) (U : Nat) : (ln.sealWaiting U).current = ln.current
    ∧ (ln.sealWaiting U).nextIndex = ln.nextIndex := by
  obtain ⟨_, _, _, h⟩ | ⟨_, h⟩ := sealWaiting_cases ln U <;> simp [h]

theorem LaneLawful.sealOrFlag (h : LaneLawful st a) (hst : st.Lawful) : LaneLawful st (a.sealOrFlag st.unitSize) :=
  ⟨stateLaw_sealOrFlag h.state _, h.units.sealOrFlag (unitSize_pos hst), h.index.congr (by simp) (by simp)⟩

theorem LaneLawful.stopTimer (h : LaneLawful st a) : LaneLawful st { a with sealAge := none } :=
  ⟨stateLaw_stopTimer h.state, h.units.stopTimer, h.index⟩

theorem laneLawful_reset (hst : st.Lawful) : LaneLawful st Lane.reset :=
  ⟨by simp [Lane.StateLaw, Lane.reset, Lane.ready], .of_empty (unitSize_pos hst) rfl rfl rfl rfl rfl,
    .of_zero (unitsPerBlock_pos hst) rfl⟩

/-- An issue keeps the laws: the unit changes lists, the block advances, and the filling unit that waited is
sealed (R83). -/
theorem LaneLawful.issue (h : LaneLawful st a) (hst : st.Lawful) {u : SealedUnit} {k : BlockAddr} (hi : a.Issuable)
    (hp : a.popReady = some (u, b)) (again : Bool) : LaneLawful st
      (((b.sent st.resultTimeout u k again).advanced st.unitsPerBlock st.refillMark).sealWaiting st.unitSize) := by
  obtain ⟨_, hs, hcur, hslot⟩ := hi
  have hsent := h.units.sent hp hslot st.resultTimeout k again
  obtain ⟨ho, hc, hr, hd⟩ := (stateLaw_working hs).mp h.state
  have hstate : (b.sent st.resultTimeout u k again).StateLaw := by
    obtain ⟨q, f, rfl⟩ := popReady_changes hp
    exact (stateLaw_working (a := Lane.sent _ _ _ _ { a with requeued := q, fresh := f }) hs).mpr
      ⟨ho, hc, hr, fun hdr => ⟨(hd hdr).1, holdsWork_iff.mpr (.inr (.inr (by simp)))⟩⟩
  have hindex : IndexBelow st.unitsPerBlock (b.sent st.resultTimeout u k again) := by
    obtain ⟨q, f, rfl⟩ := popReady_changes hp
    exact h.index
  have hsame : (b.sent st.resultTimeout u k again).state = a.state
      ∧ (b.sent st.resultTimeout u k again).current = a.current := by
    obtain ⟨q, f, rfl⟩ := popReady_changes hp
    exact ⟨rfl, rfl⟩
  exact ⟨stateLaw_sealWaiting (stateLaw_advanced (by rwa [hsame.1]) hstate _ _) _,
    (hsent.congr (sameUnits_advanced _ _ _)).sealWaiting (unitSize_pos hst),
    (hindex.advanced (by rwa [hsame.2]) st.refillMark).congr (by simp) (by simp)⟩

/-- FAULT entry keeps the laws (R100). -/
theorem LaneLawful.faulted (h : LaneLawful st a) (hst : st.Lawful) (ho : a.owner ≠ none) {us vs : List Issued}
    {u : Issued} (hout : a.outstanding = us ++ u :: vs) (n : Nat) :
    LaneLawful st (Lane.faulted n { a with outstanding := us ++ vs }) :=
  ⟨stateLaw_faulted (a := { a with outstanding := us ++ vs }) ho n, (h.units.lift hout).1.faulted (unitSize_pos hst) n,
    IndexBelow.faulted (a := { a with outstanding := us ++ vs }) h.index n⟩

/-- In FAULT a unit that leaves its list takes the current block with it when it is the last (R102). -/
theorem LaneLawful.emptied (h : LaneLawful st a) (hs : a.state = .fault) {us vs : List Issued} {u : Issued}
    (hout : a.outstanding = us ++ u :: vs) : LaneLawful st (Lane.emptied { a with outstanding := us ++ vs }) :=
  ⟨stateLaw_emptied h.state hs _, (h.units.lift hout).1.congr (sameUnits_emptied _), IndexBelow.emptied h.index⟩

/-- A unit settled leaves its lane at work, or drained (R97, R124). -/
theorem LaneLawful.settled (h : LaneLawful st a) (hst : st.Lawful) (hs : a.state = .opened ∨ a.state = .draining)
    {us vs : List Issued} {u : Issued} (hout : a.outstanding = us ++ u :: vs) :
    LaneLawful st (Lane.checked { a with outstanding := us ++ vs }) := by
  obtain ⟨ho, hc, hr, hd⟩ := (stateLaw_working hs).mp h.state
  have hlift := (h.units.lift hout).1
  exact ⟨stateLaw_checked hlift.toUnitsSound hs ho hr hc fun hdr => (hd hdr).1,
    hlift.checked (unitSize_pos hst), IndexBelow.checked h.index⟩

/-- A drain keeps the laws: what the filling unit holds is sealed, flagged or left, and a lane without work closes
(R95, R97). -/
theorem LaneLawful.drain (h : LaneLawful st a) (hst : st.Lawful) (hs : a.state = .opening ∨ a.state = .opened) :
    LaneLawful st (Lane.checked
      { Lane.sealOrFlag st.unitSize { a with state := .draining } with sealAge := none }) := by
  have hassembling : Assembling a := hs.imp_right .inl
  obtain ⟨ho, hr, hc, _⟩ := hassembling.law h.state
  have hunits := ((h.units.congr (b := { a with state := .draining }) ⟨rfl, rfl, rfl, rfl, rfl, rfl, rfl⟩).sealOrFlag
    (unitSize_pos hst)).stopTimer
  exact ⟨stateLaw_checked hunits.toUnitsSound (by simp) (by simpa using ho) (by simpa using hr) (by simpa using hc)
    fun _ => rfl, hunits.checked (unitSize_pos hst), IndexBelow.checked (h.index.congr (by simp) (by simp))⟩

/-- A unit that returns to the ready queue stands there at its attempt (R128). -/
theorem requeue_sound {U : Nat} {u : Issued} {n : Nat} (h : SoundUnit U a.owner u.entries u.attempt)
    (hn : n = u.attempt ∨ (n = u.attempt + 1 ∧ u.attempt < 3)) : SoundUnit U a.owner u.entries n :=
  { h with attempts := by have := h.attempts; omega }

/-- Seeking a block and re-queueing a unit do not read each other. -/
theorem requeue_seek (mark : Nat) (ln : Lane) (u : Issued) (n : Nat) :
    (ln.seek mark).requeue u n = (ln.requeue u n).seek mark := by
  have hn : (ln.requeue u n).needsBlock = ln.needsBlock := rfl
  have hr : (ln.requeue u n).reserve = ln.reserve := rfl
  unfold Lane.seek
  rw [hn, hr]
  split
  · split
    · rfl
    · split <;> rfl
  · rfl

/-- A unit re-queued keeps the laws (R128). -/
theorem LaneLawful.requeue (h : LaneLawful st a) (hs : a.state = .opened ∨ a.state = .draining) {us vs : List Issued}
    {u : Issued} (hout : a.outstanding = us ++ u :: vs) {n : Nat}
    (hn : n = u.attempt ∨ (n = u.attempt + 1 ∧ u.attempt < 3)) :
    LaneLawful st (Lane.requeue { a with outstanding := us ++ vs } u n) := by
  obtain ⟨ho, hc, hr, hd⟩ := (stateLaw_working hs).mp h.state
  obtain ⟨hlift, hu, _, hfree⟩ := h.units.lift hout
  exact ⟨(stateLaw_working (a := Lane.requeue { a with outstanding := us ++ vs } _ _) hs).mpr ⟨ho, hc, hr, fun hdr =>
      ⟨(hd hdr).1, holdsWork_iff.mpr (.inr (.inl (by simp [Lane.requeue, Lane.ready])))⟩⟩,
    hlift.requeue (requeue_sound hu hn) hfree, h.index⟩

/-- A block abandoned: the unit re-queued, no block current, the next one sought (R126). -/
theorem LaneLawful.abandon (h : LaneLawful st a) (hst : st.Lawful) (hs : a.state = .opened ∨ a.state = .draining)
    {us vs : List Issued} {u : Issued} (hout : a.outstanding = us ++ u :: vs) (hn : u.attempt < 3) :
    LaneLawful st (Lane.requeue (Lane.seek st.refillMark (Lane.dropBlock { a with outstanding := us ++ vs })) u
      (u.attempt + 1)) := by
  have hre := h.requeue hs hout (.inr ⟨rfl, hn⟩)
  obtain ⟨ho, _, hr, hd⟩ :=
    (stateLaw_working (a := Lane.requeue { a with outstanding := us ++ vs } _ _) hs).mp hre.state
  rw [requeue_seek]
  exact ⟨stateLaw_seek (a := Lane.requeue (Lane.dropBlock { a with outstanding := us ++ vs }) _ _) (.inr hs) ho hr
      (fun hopen => by simp [show a.state = .opening from hopen] at hs) hd _,
    (hre.units.congr ⟨rfl, rfl, rfl, rfl, rfl, rfl, rfl⟩).congr (sameUnits_seek _ _),
    IndexBelow.seek (.of_zero (unitsPerBlock_pos hst) rfl) _⟩

/-- A lane claimed holds nothing and seeks a block (R91). -/
theorem LaneLawful.claim (h : LaneLawful st a) (hst : st.Lawful) (hs : a.state = .closed) (g : GroupId) :
    LaneLawful st (Lane.seek st.refillMark (claimedLane g a)) := by
  have hlaw := h.state
  simp only [Lane.StateLaw, hs] at hlaw
  obtain ⟨_, hf, hready, hout, hc, _, _, ht, hp, hr⟩ := hlaw
  have hunits : Assembled st.unitSize (claimedLane g a) := .of_empty (unitSize_pos hst) hf hready hout ht hp
  have hindex : IndexBelow st.unitsPerBlock (claimedLane g a) := h.index
  exact ⟨stateLaw_seek (a := claimedLane g a) (.inl rfl) (by simp [claimedLane]) hr (fun _ => ⟨hout, hc⟩)
    (fun hdr => nomatch hdr) _, hunits.congr (sameUnits_seek _ _), hindex.seek _⟩

/-- A lane cleared holds nothing (R104). -/
theorem LaneLawful.cleared (h : LaneLawful st a) (hst : st.Lawful) (hs : a.state = .fault) (ho : a.outstanding = []) :
    LaneLawful st a.cleared := by
  have hlaw := h.state
  simp only [Lane.StateLaw, hs] at hlaw
  obtain ⟨_, hf, hready, hres, ht, hp, _, hc⟩ := hlaw
  exact ⟨⟨rfl, hf, hready, ho, hc ho, hres, rfl, ht, hp, rfl⟩, .of_empty (unitSize_pos hst) hf hready ho ht hp, h.index⟩

/-- A lane with a block pushed on its stack and its want flag cleared (R117). -/
def grantedLane (k : BlockAddr) (ln : Lane) : Lane := { ln with reserve := k :: ln.reserve, want := false }

/-- A block granted goes to the stack, and from it to a lane that needs one (R117). -/
theorem LaneLawful.grant (h : LaneLawful st a) (hg : a.refusesGrant = false) (k : BlockAddr) :
    LaneLawful st (Lane.seek st.refillMark (grantedLane k a)) := by
  have hs : Assembling a := by
    cases hs : a.state <;> simp_all [Lane.refusesGrant, Assembling]
  obtain ⟨ho, hr, _, hopening, hd⟩ := hs.law h.state
  have hunits : Assembled st.unitSize (grantedLane k a) := h.units.congr ⟨rfl, rfl, rfl, rfl, rfl, rfl, rfl⟩
  have hindex : IndexBelow st.unitsPerBlock (grantedLane k a) := h.index
  exact ⟨stateLaw_seek (a := grantedLane k a) hs ho hr hopening hd _, hunits.congr (sameUnits_seek _ _), hindex.seek _⟩

/-- Sectors placed in an OPENING or OPEN lane keep the laws (R60). -/
theorem LaneLawful.place (h : LaneLawful st a) (hst : st.Lawful) (hs : a.state = .opening ∨ a.state = .opened)
    {xs : List Sector} (hx : xs.length ≤ a.room st.unitSize) (ho : ∀ x ∈ xs, a.owner = some x.group) (age : Nat) :
    LaneLawful st (a.appendAll st.unitSize age xs) := by
  have hassembling : Assembling a := hs.imp_right .inl
  refine ⟨hassembling.keep h.state (by simp) fun hdr => ?_, h.units.place (unitSize_pos hst) hx ho age,
    h.index.congr (by simp) (by simp)⟩
  simp only [appendAll_frame] at hdr
  simp [hdr] at hs

/-- Only in FAULT does the residency timer run (R103). -/
theorem LaneLawful.elapsed (h : LaneLawful st a) (hr : a.residency = .running 0) :
    LaneLawful st { a with residency := .elapsed } := by
  refine ⟨?_, h.units.congr ⟨rfl, rfl, rfl, rfl, rfl, rfl, rfl⟩, h.index⟩
  have hlaw := h.state
  cases hs : a.state <;> simp_all [Lane.StateLaw, Lane.ready]

/-- Every move of a lane keeps the laws of the lanes, where the law of the lane maps stands. -/
theorem laneLawful_move {M : Prop} (hM : M) (hst : st.Lawful) (h : LaneMove M st a b) (ha : LaneLawful st a) :
    LaneLawful st b := by
  have howner : a.state = .opening ∨ a.state = .opened ∨ a.state = .draining → a.owner ≠ none := fun hs =>
    (Assembling.law hs ha.state).1
  cases h
  case flush => exact (ha.sealOrFlag hst).stopTimer
  case sealAge => exact ha.stopTimer.sealOrFlag hst
  case issue u ln' k hi hp hc => exact ha.issue hst hi hp _
  case timeout n u rest h =>
    obtain ⟨us, vs, hout, rfl, _⟩ := takeDue_some h
    split
    · next hs => exact ha.faulted hst (howner (.inr hs)) hout _
    · split
      · next hs => exact ha.emptied hs hout
      · next hworks hfault =>
        have hlaw := ha.state
        cases hs : a.state <;> simp_all [Lane.StateLaw]
  case residency hr => exact ha.elapsed hr
  case place age xs hx hm => exact ha.place hst (hm hM).1 hx (hm hM).2 age
  case backoff => exact ⟨ha.state, ha.units.congr ⟨rfl, rfl, rfl, rfl, rfl, rfl, rfl⟩, ha.index⟩
  case claim g hs => exact ha.claim hst hs g
  case drain hs => exact ha.drain hst hs
  case stop hs =>
    exact ⟨stateLaw_faulted (howner hs) _, ha.units.faulted (unitSize_pos hst) _, ha.index.faulted _⟩
  case clear hs ho hr => exact ha.cleared hst hs ho
  case settled k i u rest hs h =>
    obtain ⟨us, vs, hout, rfl, _⟩ := takeMatch_some h
    split
    · next hf => exact ha.emptied hf hout
    · next hf =>
      refine ha.settled hst ?_ hout
      cases hx : a.state <;> simp_all
  case thirdFailure k i u rest hs h =>
    obtain ⟨us, vs, hout, rfl, _⟩ := takeMatch_some h
    exact ha.faulted hst (howner (.inr hs)) hout _
  case requeue k i u rest n hs h hn =>
    obtain ⟨us, vs, hout, rfl, _⟩ := takeMatch_some h
    exact ha.requeue hs hout hn
  case abandon k i u rest hs h hn hb =>
    obtain ⟨us, vs, hout, rfl, _⟩ := takeMatch_some h
    exact ha.abandon hst hs hout hn
  case grant k hg _ => exact ha.grant hg k
  case reset => exact laneLawful_reset hst

end lane

/-! ## Every step keeps the laws -/

section step
variable {s t : State}

/-- A millisecond tick counts down the lane's timers and nothing else (R75, R103, R132). -/
theorem LaneLawful.tick {st : Settings} {a : Lane} (h : LaneLawful st a) : LaneLawful st a.tick where
  state := by
    have hlaw := h.state
    cases hs : a.state <;> cases hr : a.residency <;>
      simp_all [Lane.StateLaw, Lane.tick, Lane.ready, Lane.holdsWork, Residency.tick]
  units := { h.units with
    timed := fun ht => h.units.timed fun hn => ht (by simp [Lane.tick, hn])
    issued := fun u hu => by
      obtain ⟨v, hv, rfl⟩ := List.mem_map.mp hu
      exact h.units.issued v hv
    slots := by
      have hslots := h.units.slots
      rw [← List.length_map (f := fun u : Issued => { u with timer := u.timer - 1 })] at hslots
      exact hslots }
  index := h.index

/-- A CLOSED lane, which holds nothing, is lawful under all settings. -/
theorem LaneLawful.of_closed {st st' : Settings} {a : Lane} (h : LaneLawful st a) (hs : a.state = .closed)
    (hst : st'.Lawful) : LaneLawful st' a := by
  have hlaw := h.state
  simp only [Lane.StateLaw, hs] at hlaw
  obtain ⟨_, hf, hready, hout, hc, _, _, ht, hp, _⟩ := hlaw
  exact ⟨h.state, .of_empty (unitSize_pos hst) hf hready hout ht hp, .of_zero (unitsPerBlock_pos hst) (h.index.2 hc)⟩

/-- A SETTINGS write changes the size of a unit or of a block only while every lane is CLOSED (R171 step 5). -/
theorem settingsWrite_sizes (s : State) (fields : List (Byte × BitVec 64)) :
    ((settingsWrite s fields).2.unitSize = s.settings.unitSize
        ∧ (settingsWrite s fields).2.unitsPerBlock = s.settings.unitsPerBlock)
      ∨ ∀ l, (s.lanes.get l).state = .closed := by
  by_cases hclosed : s.closedFrom 0 = false
  · left
    unfold settingsWrite
    dsimp only
    split
    · exact ⟨rfl, rfl⟩
    split
    · exact ⟨rfl, rfl⟩
    split
    · exact ⟨rfl, rfl⟩
    split
    · exact ⟨rfl, rfl⟩
    split
    · exact ⟨rfl, rfl⟩
    next hkept =>
    split
    · exact ⟨rfl, rfl⟩
    · by_contra hne
      exact hkept ⟨by rwa [not_and_or] at hne, hclosed⟩
  · right
    simpa [State.closedFrom, allLanes] using hclosed

/-- The settings after an effect: as they were, or as a SETTINGS write leaves them, which touches no lane. -/
theorem effect_settings (h : Effect s t) : t.settings = s.settings
    ∨ ∃ fields, t.settings = (settingsWrite s.takeFront fields).2 ∧ t.lanes = s.lanes := by
  cases h
  case settingsWrite a fields h => exact .inr ⟨fields, by simp, by simp⟩
  all_goals exact .inl (by simp)

theorem lanesLawful_effect (h : Effect s t) (hst : s.settings.Lawful) (hm : s.LaneMapLaw)
    (hs : ∀ l, LaneLawful s.settings (s.lanes.get l)) (l : LaneId) : LaneLawful t.settings (t.lanes.get l) := by
  obtain he | ⟨fields, he, hlanes⟩ := effect_settings h
  · rw [he]
    exact effect_lane_keeps h (fun _ _ hmove => laneLawful_move hm hst hmove) hs l
  · have hnew : t.settings.Lawful := lawful_effect h hst
    rw [hlanes]
    obtain ⟨hsize, hper⟩ | hclosed := settingsWrite_sizes s.takeFront fields
    · have hl := hs l
      exact ⟨hl.state, by rw [he, hsize]; exact hl.units, by rw [he, hper]; exact hl.index⟩
    · exact (hs l).of_closed (hclosed l) hnew

theorem lanesLawful_beginFlush (hst : s.settings.Lawful) (hs : ∀ l, LaneLawful s.settings (s.lanes.get l))
    (l : LaneId) : LaneLawful s.settings ((beginFlush s).lanes.get l) := by
  have hm := moves_flush (M := True) (s := s) l
  generalize (beginFlush s).lanes.get l = b at hm ⊢
  induction hm with
  | refl => exact hs l
  | tail _ hmove ih => exact laneLawful_move trivial hst hmove ih

theorem lanesLawful_after (h : After s t) (hst : s.settings.Lawful) (hm : s.LaneMapLaw)
    (hs : ∀ l, LaneLawful s.settings (s.lanes.get l)) (l : LaneId) : LaneLawful t.settings (t.lanes.get l) := by
  cases h
  case same | pin => exact hs l
  case powerOn | lineReset =>
    have hlane : State.reset.lanes.get l = Lane.reset := reset_lane l
    change LaneLawful Settings.reset (State.reset.lanes.get l)
    rw [hlane]
    exact laneLawful_reset reset_settings_lawful
  case start => exact hs l
  case startFlush hr hp =>
    simpa using lanesLawful_beginFlush (s := { s with inReset := false, warning := true }) hst hs l
  case effect u hr hu => exact lanesLawful_effect hu hst hm hs l

end step

/-- Settles O54: every move of a lane keeps the laws asked of one lane, a tick counts its timers alone, and the sizes
that the laws name change over CLOSED lanes only. -/
theorem lanesKept : Obligations.LanesKept := by
  intro s t hst hm hlane hready howner hindex h
  have hs := (lanesLaws_iff s).mp ⟨hlane, hready, howner, hindex⟩
  rw [lanesLaws_iff]
  obtain ⟨c, rest, _, ha⟩ | ⟨_, n, ha | rfl⟩ := step_cases h
  · exact lanesLawful_after ha hst (laneMapLaw_congr hm ⟨rfl, rfl, rfl⟩) hs
  · exact lanesLawful_after ha hst (laneMapLaw_congr hm ⟨rfl, rfl, rfl⟩) hs
  · intro l
    rw [show (msTick { s with draws := n }).lanes.get l = (s.lanes.get l).tick from Table.get_map ..]
    exact (hs l).tick

end Sys2Proof.Proofs
end

section
/-! SUPPORT. The timers of the lanes and the levels of HOLDUP_N (R76, R79, R81, R103, R143, R145, R146, R149): what
an expiry and a flush do to the filling units, and the flush that is complete at once. -/

namespace Sys2Proof.Proofs
open Sys2Proof Sys2Proof.Machine Sys2Proof.Laws

/-! ## The lanes' timers -/

/-- Settles O28: a due expiry stops its timer, and a filling unit that is neither empty nor full is sealed or
flagged. -/
theorem laneTimersExpire : Obligations.LaneTimersExpire := by
  intro s l hwork
  refine ⟨fun hdue hfill hlen => ?sealAge, fun hdue => ?residency⟩
  case sealAge =>
    have hseal : Lane.sealOrFlag s.settings.unitSize { s.lanes.get l with sealAge := none } =
        if (s.lanes.get l).ready.length < 4 then
          Lane.sealFilling s.settings.unitSize { s.lanes.get l with sealAge := none }
        else { s.lanes.get l with sealAge := none, sealPending := true } := by
      rw [← readyCount_eq]
      unfold Lane.sealOrFlag
      rw [if_neg hfill, if_pos hlen]
      rfl
    have hdue' : (s.lanes.get l).sealAgeDue = true := by simp [Lane.sealAgeDue, hdue]
    rw [show exec (.sealAgeExpiry l) s = execSealAgeExpiry l s from rfl, execSealAgeExpiry, if_pos hdue',
      commit_some hwork, hseal]
    rfl
  case residency =>
    have hdue' : (s.lanes.get l).residencyDue = true := by simp [Lane.residencyDue, hdue]
    rw [show exec (.faultResidencyExpiry l) s = execFaultResidencyExpiry l s from rfl, execFaultResidencyExpiry,
      if_pos hdue', commit_some hwork]

/-! ## The flush -/

/-- What a flush makes of a lane: its filling unit sealed, flagged or left, its timer stopped (R81, R143). -/
theorem flush_eq (U : Nat) (ln : Lane) : ln.flush U =
    { (if ln.filling = [] then ln
       else if ln.ready.length < 4 then ln.sealFilling U
       else if ln.filling.length < U then { ln with sealPending := true }
       else ln) with sealAge := none } := by
  unfold Lane.flush Lane.sealOrFlag
  rw [readyCount_eq]
  split_ifs <;> rfl

/-- A flush neither adds nor ends work (R81). -/
theorem flush_holdsWork (U : Nat) (ln : Lane) : (ln.flush U).holdsWork = ln.holdsWork := by
  obtain ⟨he, _⟩ | ⟨hf, _, he⟩ | ⟨_, _, _, he⟩ := sealOrFlag_cases ln U <;> unfold Lane.flush <;> rw [he]
  · rfl
  · simp [Lane.holdsWork, Lane.sealFilling, List.isEmpty_eq_false_iff.mpr hf]
  · rfl

/-- The part as a flush begins, its live levels latched (R143, R154). -/
def flushBegun (s : State) : State := State.latchLevels
  { s with warning := true, mode := .flushing, lanes := s.lanes.map (Lane.flush s.settings.unitSize) }

theorem beginFlush_eq (s : State) : beginFlush s = transmitterChoice (flushCheck (flushBegun s)) := rfl

/-- The flush of a part that holds work waits for it (R145). -/
theorem beginFlush_of_work {s : State} {l : LaneId} (h : (s.lanes.get l).holdsWork = true) :
    beginFlush s = transmitterChoice (flushBegun s) := by
  rw [beginFlush_eq, flushCheck_of_work (l := l)]
  simpa [flushBegun, flush_holdsWork] using h

/-- The flush of a part that holds no work is complete at once, under an asserted level (R145, R146). -/
theorem beginFlush_of_idle {s : State} (h : ∀ l, (s.lanes.get l).holdsWork = false) : beginFlush s =
    transmitterChoice { (flushBegun s).createF .flushDone with mode := .flushed } := by
  have hidle : (flushBegun s).workHeld = false :=
    Table.any_items_false.mpr fun l => by simpa [flushBegun, flush_holdsWork] using h l
  rw [beginFlush_eq, flushCheck, if_pos ⟨rfl, hidle⟩]
  rfl

/-- An assertion of HOLDUP_N is taken whole by its mode (R143, R146). -/
theorem exec_holdupAsserted {s : State} (h : s.inReset = false) : exec .holdupAsserted s = .next (State.latchLevels
    (if s.mode = .run then beginFlush { s with holdupPin := true }
     else { s with holdupPin := true, warning := true })) :=
  commit_some (s := { s with holdupPin := true }) h _

/-- A standing level taken in RUN begins the flush (R149). -/
theorem exec_warningTaken {s : State} (h : s.inReset = false) (hw : s.warning = true) (hm : s.mode = .run) :
    exec .warningTakenAfterSoftReset s = .next (beginFlush s).latchLevels := by
  rw [show exec .warningTakenAfterSoftReset s = execWarningTakenAfterSoftReset s from rfl,
    execWarningTakenAfterSoftReset, if_pos (by simp [State.warningDue, hw, hm]), commit_some h]

/-- Settles O7: both commands that find an asserted level in RUN begin the flush of the same lanes, and the other
levels are recorded. -/
theorem holdupLine : Obligations.HoldupLine := by
  intro s hwork
  refine ⟨fun c pin hc hrun => ⟨s.lanes.map (Lane.flush s.settings.unitSize), fun l => ?lanes,
    flushBegun { s with holdupPin := pin }, rfl, ?flush⟩, fun hmode => ?recorded, ?deasserted⟩
  case lanes => rw [Table.get_map, flush_eq]
  case flush =>
    have hexec : exec c s = .next (beginFlush { s with holdupPin := pin }).latchLevels := by
      obtain ⟨rfl, rfl⟩ | ⟨rfl, hw, rfl⟩ := hc
      · rw [exec_holdupAsserted hwork, if_pos hrun]
      · exact exec_warningTaken hwork hw hrun
    rw [hexec]
    exact ⟨fun ⟨l, hl⟩ => by rw [beginFlush_of_work (s := { s with holdupPin := pin }) (l := l) hl],
      fun hidle => by rw [beginFlush_of_idle (s := { s with holdupPin := pin }) hidle]⟩
  case recorded => rw [exec_holdupAsserted hwork, if_neg hmode]
  case deasserted => exact commit_some (s := { s with holdupPin := false }) hwork _

end Sys2Proof.Proofs
end

section
/-! SUPPORT. The ends of sending, the transmitter's choice and the issue of a unit (R82, R83, R86, R87, R111, R112,
R115, R138, R139, R166). -/

namespace Sys2Proof.Proofs
open Sys2Proof Sys2Proof.Machine Sys2Proof.Laws

/-! ## The ends of sending -/

/-- The end of a record's sending on the B-link: the hold follows and the transmitter chooses (R86). -/
theorem exec_bLinkSendEnd {s : State} (hwork : s.inReset = false) {r : BRecord} (h : s.bLink.sending = some r) :
    exec .bLinkSendEnd s = .next (State.latchLevels (transmitterChoice
      (holdAfterSend r { s with bLink := { s.bLink with sending := none } }))) := by
  rw [show exec .bLinkSendEnd s = execBLinkSendEnd s from rfl, execBLinkSendEnd, h]
  exact commit_some hwork _

/-- Once its sending has ended, a HOLD-ACK waits exactly when the control list holds one (R139; log entry 11). -/
theorem ackWaits_idle {t : BLink} (h : t.sending = none) : t.ackWaits = false ↔ .holdAck ∉ t.control := by
  simp [BLink.ackWaits, h]

/-- Settles O29: the F-link sends the next of its list, and on the B-link what the hold does goes by the record whose
sending has ended. -/
theorem sendEnds : Obligations.SendEnds := by
  intro s hwork
  refine ⟨fun r h => ?fLink, ?bLink⟩
  case fLink =>
    rw [show exec .fLinkSendEnd s = execFLinkSendEnd s from rfl, execFLinkSendEnd, h]
    refine (commit_some hwork _).trans ?_
    cases hlist : s.fLink.list <;> simp [FLink.advance, hlist]
  case bLink =>
    rintro r e h rfl
    rw [exec_bLinkSendEnd hwork h]
    refine ⟨fun hack hprogram => ?other, ?program, ?ack⟩
    case other =>
      cases r
      case program => exact absurd rfl (hprogram _ _ _ _ _ _)
      case holdAck => exact absurd rfl hack
      all_goals rfl
    case program =>
      rintro l b i n U es rfl
      refine ⟨fun hh => ?_, fun hh => ?_, ?_⟩
      · simp only [holdAfterSend, hh]
      · simp only [holdAfterSend, hh]
      · rintro (hh | hh) <;> simp only [holdAfterSend, hh]
    case ack =>
      rintro rfl
      simp only [holdAfterSend, ackWaits_idle]

/-! ## The transmitter's choice -/

section choice
variable {s : State} {l m : LaneId}

/-- How far a lane stands behind the one after the last lane served, ascending and wrapping (R86). -/
def laneDistance (last l : LaneId) : Nat := (l.val + 47 - last.val) % 48

theorem laneDistance_roundRobin (last i : LaneId) : laneDistance last (last + 1 + i) = i.val := by
  have h1 : (1 : LaneId).val = 1 := rfl
  simp only [laneDistance, Fin.val_add, h1]
  omega

/-- The distance tells the lanes apart. -/
theorem laneDistance_inj {last : LaneId} (h : laneDistance last l = laneDistance last m) : l = m := by
  unfold laneDistance at h
  ext
  omega

/-- The round-robin looks at the lanes by their distance (R86). -/
theorem roundRobin_sorted (last : LaneId) :
    (roundRobin last).Pairwise fun a b => laneDistance last a < laneDistance last b := by
  rw [roundRobin, List.pairwise_map]
  simp only [laneDistance_roundRobin]
  exact List.pairwise_lt_finRange 48

theorem mem_roundRobin (last l : LaneId) : l ∈ roundRobin last :=
  List.mem_map.mpr ⟨l - (last + 1), List.mem_finRange _, add_sub_cancel _ l⟩

/-- No lane is issuable when the round-robin finds none (R86, choice 2). -/
theorem nextLane_none (h : s.nextLane = none) (l : LaneId) : ¬ (s.lanes.get l).Issuable := by
  rw [← issuable_iff]
  exact List.find?_eq_none.mp h l (mem_roundRobin _ l)

/-- The lane found is the nearest issuable one (R86, choice 2). -/
theorem nextLane_nearest (h : s.nextLane = some l) (hm : (s.lanes.get m).Issuable) :
    laneDistance s.bLink.lastServed l ≤ laneDistance s.bLink.lastServed m := by
  obtain ⟨_, before, after, horder, hbefore⟩ := List.find?_eq_some_iff_append.mp h
  have hsorted := roundRobin_sorted s.bLink.lastServed
  have hmem := mem_roundRobin s.bLink.lastServed m
  rw [horder] at hmem hsorted
  obtain hin | rfl | hin : m ∈ before ∨ m = l ∨ m ∈ after := by simpa using hmem
  · have := hbefore m hin
    simp [issuable_iff.mpr hm] at this
  · exact le_rfl
  · exact (List.rel_of_pairwise_cons (List.pairwise_append.mp hsorted).2.1 hin).le

/-- An issuable lane that no issuable lane is nearer than is the one found. -/
theorem nextLane_of_nearest (hl : (s.lanes.get l).Issuable) (hnearest : ∀ m, (s.lanes.get m).Issuable →
    laneDistance s.bLink.lastServed l ≤ laneDistance s.bLink.lastServed m) : s.nextLane = some l := by
  cases hnext : s.nextLane with
  | none => exact absurd hl (nextLane_none hnext l)
  | some k =>
    have hk : (s.lanes.get k).Issuable :=
      issuable_iff.mp (List.find?_some (p := fun m => (s.lanes.get m).issuable) hnext)
    rw [laneDistance_inj (Nat.le_antisymm (hnearest k hk) (nextLane_nearest hnext hl))]

theorem nextLane_of_none (h : ∀ l, ¬ (s.lanes.get l).Issuable) : s.nextLane = none :=
  List.find?_eq_none.mpr fun l _ => by rw [issuable_iff]; exact h l

end choice

/-- Settles O30: a record that runs on, the oldest control record, nothing to choose, and the nearest issuable lane. -/
theorem transmitterChooses : Obligations.TransmitterChooses := by
  intro s
  refine ⟨fun hsends => ?sends, fun hidle r rest hcontrol => ?control, fun hidle hcontrol hnone => ?nothing,
    fun hidle hcontrol hfree l hl hnearest => ?program⟩
  case sends =>
    obtain ⟨r, hr⟩ := Option.ne_none_iff_exists'.mp hsends
    simp [transmitterChoice, hr]
  case control => simp [transmitterChoice, hidle, hcontrol, BLink.advance]
  case nothing =>
    obtain hheld | hnone := hnone
    · simp [transmitterChoice, hidle, hcontrol, hheld]
    · simp [transmitterChoice, hidle, hcontrol, nextLane_of_none hnone]
  case program => simp [transmitterChoice, hidle, hcontrol, hfree, nextLane_of_nearest hl hnearest]

/-! ## Issue -/

section issue
variable {s : State} {l : LaneId} {ln : Lane}

/-- A lane whose current block is complete, before it seeks the next (R112). -/
def blockDone (ln : Lane) : Lane := { ln.dropBlock with blocksCompleted := ln.blocksCompleted + 1 }

/-- The WANT that a block's completion creates, if it creates one (R112, R115). -/
def advanceWants (l : LaneId) (per mark : Nat) (ln : Lane) : List BRecord :=
  if per ≤ ln.nextIndex + 1 then (blockDone ln).seekWant l mark else []

/-- The advance of a block said whole (R83 stage 6, R112). -/
theorem advanceBlock_eq (l : LaneId) (s : State) : advanceBlock l s =
    (s.setLane l ((s.lanes.get l).advanced s.settings.unitsPerBlock s.settings.refillMark)).createAllB
      (advanceWants l s.settings.unitsPerBlock s.settings.refillMark (s.lanes.get l)) := by
  unfold advanceBlock Lane.advanced advanceWants
  dsimp only
  split
  · rw [seekBlock_eq]
    simp [State.setLane, blockDone]
  · rfl

/-- Issue said whole: what it makes of the lane, the PROGRAM sent, and the WANT behind it (R83). -/
theorem issue_eq {u : SealedUnit} {b : BlockAddr} (hp : (s.lanes.get l).popReady = some (u, ln))
    (hc : (s.lanes.get l).current = some b) {sent : Lane}
    (hsent : sent = ln.sent s.settings.resultTimeout u b (!(s.lanes.get l).requeued.isEmpty)) :
    issue l s = State.createAllB { s with
        lanes := s.lanes.set l ((sent.advanced s.settings.unitsPerBlock s.settings.refillMark).sealWaiting
          s.settings.unitSize)
        bLink := { s.bLink with
          sending := some (.program l b ln.nextIndex u.attempt s.settings.unitSize u.entries), lastServed := l } }
      (advanceWants l s.settings.unitsPerBlock s.settings.refillMark sent) := by
  unfold issue
  simp only [hp, hc]
  rw [advanceBlock_eq, setLane_createAllB]
  subst hsent
  simp [State.setLane, Lane.sent]

/-- The head of the ready queue, by the run it stands in (R72). -/
theorem popReady_head {u : SealedUnit} {q f : List SealedUnit} {again : Bool}
    (h : ln.requeued = u :: q ∧ ln.fresh = f ∧ again = true
      ∨ ln.requeued = [] ∧ q = [] ∧ ln.fresh = u :: f ∧ again = false) :
    ln.popReady = some (u, { ln with requeued := q, fresh := f }) ∧ (!ln.requeued.isEmpty) = again := by
  obtain ⟨hq, rfl, rfl⟩ | ⟨hq, rfl, hf, rfl⟩ := h
  · simp [Lane.popReady, hq]
  · simp [Lane.popReady, hq, hf]

/-- Below the last index of a block the index rises (R83 stage 6). -/
theorem advanced_rises {per : Nat} (h : ln.nextIndex + 1 < per) (l : LaneId) (mark : Nat) :
    advanceWants l per mark ln = [] ∧ ln.advanced per mark = { ln with nextIndex := ln.nextIndex + 1 } := by
  simp [advanceWants, Lane.advanced, Nat.not_le.mpr h]

theorem advanced_done {per : Nat} (h : per ≤ ln.nextIndex + 1) (mark : Nat) :
    ln.advanced per mark = (blockDone ln).seek mark := if_pos h

theorem needsBlock_completed (hs : ln.state = .opened ∨ ln.state = .draining) :
    (blockDone ln).needsBlock = true := by
  obtain hs | hs := hs <;> simp [Lane.needsBlock, blockDone, hs]

/-- A complete block leaves the stack and the want flag as they were (R112). -/
theorem blockDone_supply (ln : Lane) : (blockDone ln).reserve = ln.reserve ∧ (blockDone ln).want = ln.want :=
  ⟨rfl, rfl⟩

/-- At the last index of a block, over an empty stack, the lane wants 8 (R112, R115). -/
theorem advanced_dry {per : Nat} (h : per ≤ ln.nextIndex + 1) (hs : ln.state = .opened ∨ ln.state = .draining)
    (hr : ln.reserve = []) (l : LaneId) (mark : Nat) :
    advanceWants l per mark ln = (if ln.want then [] else [.want l 8])
      ∧ ln.advanced per mark = { ln with
          current := none, nextIndex := 0, blocksCompleted := ln.blocksCompleted + 1, want := true } := by
  have hneeds := needsBlock_completed hs
  constructor
  · rw [advanceWants, if_pos h]
    cases hw : ln.want <;> simp [Lane.seekWant, hneeds, blockDone_supply, hr, hw]
  · rw [advanced_done h, Lane.seek, if_pos hneeds]
    simp [blockDone, Lane.dropBlock, hr]

/-- At the last index of a block, over a stack, its top becomes the current block, and the lane makes the want check
against the refill mark (R111, R112, R115). -/
theorem advanced_pops {per : Nat} (h : per ≤ ln.nextIndex + 1) (hs : ln.state = .opened ∨ ln.state = .draining)
    {x : BlockAddr} {rest : List BlockAddr} (hr : ln.reserve = x :: rest) (l : LaneId) (mark : Nat) :
    advanceWants l per mark ln = (if ln.want = false ∧ rest.length ≤ mark then [.want l (8 - rest.length)] else [])
      ∧ ln.advanced per mark = { ln with
          current := some x, nextIndex := 0, reserve := rest, blocksCompleted := ln.blocksCompleted + 1
          want := ln.want || decide (rest.length ≤ mark) } := by
  have hneeds := needsBlock_completed hs
  have hopen : ln.state ≠ .opening := by obtain hs | hs := hs <;> simp [hs]
  constructor
  · rw [advanceWants, if_pos h]
    cases hw : ln.want <;> simp [Lane.seekWant, hneeds, blockDone_supply, hr, hw]
  · rw [advanced_done h, Lane.seek, if_pos hneeds]
    by_cases hmark : rest.length ≤ mark <;> simp [blockDone, Lane.dropBlock, Lane.pop, hr, hmark, hopen]

end issue

/-- Settles O31: the stages of an issue are those of `issue_eq`, and its block has room for one unit more, is complete
over an empty stack, or is complete over a stack. -/
theorem issueOfAUnit : Obligations.IssueOfAUnit := by
  rintro s l u q f k _ again b b' wants hhead hc rfl hs hb hcases
  obtain ⟨hp, hagain⟩ := popReady_head hhead
  have hsent : b = Lane.sent s.settings.resultTimeout u k (!(s.lanes.get l).requeued.isEmpty)
      { s.lanes.get l with requeued := q, fresh := f } := by rw [hb, hagain]; rfl
  have hbs : b.state = .opened ∨ b.state = .draining := by rw [hb]; exact hs
  have hindex : b.nextIndex = (s.lanes.get l).nextIndex := by rw [hb]
  have hadvanced : advanceWants l s.settings.unitsPerBlock s.settings.refillMark b = wants
      ∧ b.advanced s.settings.unitsPerBlock s.settings.refillMark = b' := by
    rw [← hindex] at hcases
    obtain ⟨hn, rfl, rfl⟩ | ⟨hn, hr, rfl, rfl⟩ | ⟨x, rest, hn, hr, rfl, rfl⟩ := hcases
    · exact advanced_rises hn l _
    · exact advanced_dry hn hbs hr l _
    · exact advanced_pops hn hbs hr l _
  rw [issue_eq hp hc hsent, hadvanced.1, hadvanced.2, Lane.sealWaiting, readyCount_eq]

end Sys2Proof.Proofs
end

section
/-! SUPPORT. The law of the transmitters (R86, R166): what an effect does to each link, and the transmitter's choice
that ends every effect which may make a lane issuable. -/

namespace Sys2Proof.Proofs
open Sys2Proof Sys2Proof.Machine

/-! ## A transmitter that looks at its list -/

/-- The F-link transmitter is idle after it has looked at its list exactly when it was, with nothing in it (R166). -/
theorem fAdvance_idle {t : FLink} : (FLink.advance t).sending = none ↔ t = ⟨none, []⟩ := by
  obtain ⟨_ | r, _ | ⟨x, rest⟩⟩ := t <;> simp [FLink.advance]

/-- The same for the B-link transmitter and its control list (R86, choice 1). -/
theorem bAdvance_idle {t : BLink} :
    (BLink.advance t).sending = none ↔ t.sending = none ∧ t.control = [] := by
  obtain ⟨_ | r, _ | ⟨x, rest⟩, last⟩ := t <;> simp [BLink.advance]

/-- Between two states the F-link transmitter stands still, or it sends at the end. -/
def FRuns (s t : State) : Prop := t.fLink = s.fLink ∨ t.fLink.sending ≠ none

/-- The same for the B-link transmitter. -/
def BRuns (s t : State) : Prop := t.bLink = s.bLink ∨ t.bLink.sending ≠ none

section runs
variable {s t u : State}

theorem FRuns.trans (hst : FRuns s t) (htu : FRuns t u) : FRuns s u := by
  obtain he | hsends := htu
  · rwa [FRuns, he]
  · exact .inr hsends

/-- Only the F-link of the first state counts. -/
theorem FRuns.after (htu : FRuns t u) (h : t.fLink = s.fLink) : FRuns s u := FRuns.trans (.inl h) htu

theorem FRuns.choice (h : FRuns s t) : FRuns s (transmitterChoice t) := h.trans (.inl (by simp))

theorem BRuns.trans (hst : BRuns s t) (htu : BRuns t u) : BRuns s u := by
  obtain he | hsends := htu
  · rwa [BRuns, he]
  · exact .inr hsends

/-- A record created for the F-link leaves its transmitter sending (R166). -/
theorem fRuns_createF (r : FRecord) : FRuns s (s.createF r) :=
  .inr fun h => by simpa using congrArg FLink.list (fAdvance_idle.mp h)

/-- A record created for the B-link leaves its transmitter sending (R86). -/
theorem bRuns_createB (r : BRecord) : BRuns s (s.createB r) :=
  .inr fun h => by simpa using (bAdvance_idle.mp h).2

theorem bRuns_createAllB (rs : List BRecord) : BRuns s (s.createAllB rs) := by
  induction rs generalizing s with
  | nil => exact .inl rfl
  | cons r rs ih => exact (bRuns_createB r).trans ih

theorem runs_settleEntry (ok : Bool) (e : Entry) : FRuns s (settleEntry ok s e) ∧ BRuns s (settleEntry ok s e) := by
  match e with
  | .pad => exact ⟨.inl rfl, .inl rfl⟩
  | .sector ⟨.front tag, _, _, _, _⟩ =>
    unfold settleEntry
    dsimp only
    split
    · split
      · exact ⟨.inl rfl, .inl rfl⟩
      · exact ⟨fRuns_createF (s := s.setFrontTag _ _) _, .inl rfl⟩
    · exact ⟨.inl rfl, .inl rfl⟩
  | .sector ⟨.reloc tag, _, _, _, _⟩ =>
    unfold settleEntry
    dsimp only
    split
    · split
      · exact ⟨.inl rfl, .inl rfl⟩
      · exact ⟨.inl rfl, bRuns_createB (s := s.setRelocTag _ _) _⟩
    · exact ⟨.inl rfl, .inl rfl⟩

/-- Entries settled answer on either link (R135, R136). -/
theorem runs_settleEntries (ok : Bool) (es : List Entry) :
    FRuns s (settleEntries ok es s) ∧ BRuns s (settleEntries ok es s) := by
  induction es generalizing s with
  | nil => exact ⟨.inl rfl, .inl rfl⟩
  | cons e es ih =>
    obtain ⟨hf, hb⟩ := runs_settleEntry (s := s) ok e
    exact ⟨hf.trans ih.1, hb.trans ih.2⟩

theorem runs_faultEntry (l : LaneId) : FRuns s (faultEntry l s) ∧ BRuns s (faultEntry l s) := by
  obtain ⟨hf, hb⟩ := runs_settleEntries (s := (s.clearMaps l).setLane l
    ((s.lanes.get l).faulted s.settings.faultResidency)) false (s.lanes.get l).discards
  rw [faultEntry_eq]
  exact ⟨FRuns.trans hf (.inl (by simp)), BRuns.trans hb (bRuns_createAllB _)⟩

theorem bRuns_faultedHandback (l : LaneId) : BRuns s (faultedHandback l s) := by
  rw [faultedHandback_eq]
  exact bRuns_createAllB (s := s.setLane l _) _

theorem fRuns_flushCheck : FRuns s (flushCheck s) := by
  unfold flushCheck
  split
  · exact fRuns_createF .flushDone
  · exact .inl rfl

/-! ## The F-link after an effect -/

theorem fRuns_beginFlush : FRuns s (beginFlush s) := by
  unfold beginFlush
  exact (fRuns_flushCheck.after rfl).choice

theorem fRuns_settleUnit (ok : Bool) (l : LaneId) (v : Issued) : FRuns s (settleUnit ok l v s) :=
  ((runs_settleEntries ok v.entries).1.trans (.inl (by simp))).trans fRuns_flushCheck

theorem fRuns_failLane (l : LaneId) (v : Issued) : FRuns s (failLane l v s) :=
  ((runs_settleEntries false v.entries).1.trans (runs_faultEntry l).1).trans fRuns_flushCheck

theorem fRuns_failUnit (l : LaneId) (v : Issued) : FRuns s (failUnit l v s) := by
  unfold failUnit
  dsimp only
  split
  · exact fRuns_settleUnit false l v
  · split
    · exact fRuns_failLane l v
    · split <;> exact .inl (by simp)

theorem fRuns_abortUnit (l : LaneId) (v : Issued) : FRuns s (abortUnit l v s) := by
  unfold abortUnit
  dsimp only
  split
  · exact fRuns_settleUnit false l v
  · split
    · split
      · exact fRuns_failLane l v
      · exact .inl (by simp)
    · exact .inl (by simp)

/-- A unit timed out: its entries settled, and its lane in FAULT (R133). -/
theorem runs_timeoutUnit (l : LaneId) (v : Issued) : FRuns s (timeoutUnit l v s) ∧ BRuns s (timeoutUnit l v s) := by
  have hsettle := runs_settleEntries (s := s) false v.entries
  have hcapture : FRuns s (takeCapture .resultTimeout l v ((settleEntries false v.entries s).raise .resultTimeout))
      ∧ BRuns s (takeCapture .resultTimeout l v ((settleEntries false v.entries s).raise .resultTimeout)) :=
    ⟨hsettle.1.trans (.inl (by simp)), hsettle.2.trans (.inl (by simp))⟩
  have hcheck : ∀ t, FRuns s t ∧ BRuns s t → FRuns s (flushCheck t) ∧ BRuns s (flushCheck t) := fun t h =>
    ⟨h.1.trans fRuns_flushCheck, h.2.trans (.inl (by simp))⟩
  refine hcheck _ ?_
  split
  · exact ⟨hcapture.1.trans (runs_faultEntry l).1, hcapture.2.trans (runs_faultEntry l).2⟩
  · split
    · exact ⟨hcapture.1.trans (.inl (by simp)), hcapture.2.trans (bRuns_faultedHandback l)⟩
    · exact hcapture

theorem fRuns_classifyWrite (w : WriteRec) : FRuns s (classifyWrite w s) := by
  unfold classifyWrite
  dsimp only
  split
  · split
    · exact fRuns_createF _
    · split
      · exact .inl rfl
      · exact fRuns_createF (s := countBackoff _ s) _
  · exact fRuns_createF _

theorem fRuns_storeStream (a : Admin) (i : StreamId) (fields : List (Byte × BitVec 64)) :
    FRuns s (storeStream a i fields s) := by
  unfold storeStream
  split
  · exact fRuns_createF _
  · split
    · exact fRuns_createF _
    · split
      · exact fRuns_createF (s := s.setStream i _) _
      · exact fRuns_createF _

theorem fRuns_storeGroup (a : Admin) (g : GroupId) (fields : List (Byte × BitVec 64)) :
    FRuns s (storeGroup a g fields s) := by
  unfold storeGroup
  split
  · exact fRuns_createF _
  · split
    · exact fRuns_createF _
    · dsimp only
      split
      · exact fRuns_createF _
      · exact (fRuns_createF _).after (by simp)

theorem fRuns_requestDrain (a : Admin) (l : LaneId) : FRuns s (requestDrain a l s) := by
  have hdrain : FRuns s (transmitterChoice ((flushCheck (drainLane l s)).reply a .ok)) :=
    ((fRuns_flushCheck.after (by simp)).trans (fRuns_createF _)).choice
  unfold requestDrain
  split
  · exact hdrain
  · exact hdrain
  all_goals exact fRuns_createF _

theorem fRuns_requestStop (a : Admin) (l : LaneId) : FRuns s (requestStop a l s) := by
  have hstop : FRuns s ((flushCheck (faultEntry l s)).reply a .ok) :=
    ((runs_faultEntry l).1.trans fRuns_flushCheck).trans (fRuns_createF _)
  unfold requestStop
  split
  · exact hstop
  · exact hstop
  · exact hstop
  all_goals exact fRuns_createF _

theorem fRuns_requestClear (a : Admin) (l : LaneId) : FRuns s (requestClear a l s) := by
  unfold requestClear
  dsimp only
  split
  · split
    · exact fRuns_createF _
    · split
      · exact fRuns_createF _
      · exact fRuns_createF (s := s.setLane l _) _
  · exact fRuns_createF _

/-- The law of the F-link transmitter (R166). -/
def FIdleLaw (s : State) : Prop := s.fLink.sending = none → s.fLink.list = []

theorem FIdleLaw.runs (hs : FIdleLaw s) (h : FRuns s t) : FIdleLaw t := by
  obtain he | hsends := h
  · rwa [FIdleLaw, he]
  · exact fun hn => absurd hn hsends

/-- Every effect leaves the F-link transmitter idle only with nothing to send. -/
theorem fIdleLaw_effect (h : Effect s t) (hs : FIdleLaw s) : FIdleLaw t := by
  cases h
  case fSendEnd r h => exact fun hn => by rw [fAdvance_idle.mp hn]; rfl
  all_goals refine hs.runs ?_
  case holdupAsserted => exact fRuns_beginFlush.after rfl
  case warningTaken => exact fRuns_beginFlush
  case timeout l n v rest h => exact (runs_timeoutUnit l v).1.after rfl
  case writeFull | adminFull | writePower | writeTag | answered | streamRead | streamReadLate | lateBadIndex
    | writeLate | conditionClear | captureTake | settingsWrite => exact (fRuns_createF _).after rfl
  case softReset => exact (fRuns_createF _).after (by simp)
  case writeClassified w h hm hp => exact ((fRuns_classifyWrite w).after rfl).choice
  case streamWrite a i fields h hp => exact (fRuns_storeStream a i fields).after rfl
  case streamWriteLate a i fields h hp => exact (fRuns_storeStream a i fields).after rfl
  case groupWrite a g fields h => exact ((fRuns_storeGroup a g fields).after rfl).choice
  case drain a l h => exact (fRuns_requestDrain a l).after rfl
  case stop a l h => exact (fRuns_requestStop a l).after rfl
  case clear a l h => exact (fRuns_requestClear a l).after rfl
  case resultOk l v rest b i hl h => exact ((fRuns_settleUnit true l v).after rfl).choice
  case resultFail l v rest b i hl h => exact ((fRuns_failUnit l v).after (by simp)).choice
  case resultAborted l v rest b i hl h => exact ((fRuns_abortUnit l v).after rfl).choice
  all_goals exact .inl (by simp)

/-! ## The B-link after an effect -/

/-- The law of the B-link transmitter (R86). -/
def BIdleLaw (s : State) : Prop := s.bLink.sending = none →
  s.bLink.control = [] ∧ (s.hold = .free → ∀ l, ¬ (s.lanes.get l).Issuable)

/-- A PROGRAM issued is being sent (R83). -/
theorem issue_sends {l : LaneId} (h : (s.lanes.get l).Issuable) : (issue l s).bLink.sending ≠ none := by
  obtain ⟨u, ln, c, hp, hc⟩ := issuable_pop h
  rw [issue_eq hp hc rfl]
  obtain he | hsends := bRuns_createAllB _
  · rw [he]
    simp
  · exact hsends

/-- After its choice the transmitter is idle only with nothing to send (R86). -/
theorem bIdleLaw_choice : BIdleLaw (transmitterChoice s) := by
  obtain ⟨he, hnone⟩ | ⟨r, rest, _, _, he⟩ | ⟨l, _, _, _, _, hi, he⟩ := transmitterChoice_cases s <;> rw [he]
  · intro hidle
    obtain ⟨hcontrol, hnext⟩ := hnone hidle
    exact ⟨hcontrol, fun hfree => nextLane_none (hnext hfree)⟩
  · exact fun hidle => nomatch hidle
  · exact fun hidle => absurd hidle (issue_sends hi)

/-- The law stands while the transmitter stands still or sends and no lane comes to be issuable over a free port. -/
theorem BIdleLaw.runs (hs : BIdleLaw s) (h : BRuns s t)
    (hlanes : t.hold = .free → ∀ l, (t.lanes.get l).Issuable → s.hold = .free ∧ (s.lanes.get l).Issuable) :
    BIdleLaw t := by
  obtain he | hsends := h
  · intro hidle
    rw [he] at hidle ⊢
    obtain ⟨hcontrol, hnone⟩ := hs hidle
    exact ⟨hcontrol, fun hfree l hi => hnone (hlanes hfree l hi).1 l (hlanes hfree l hi).2⟩
  · exact fun hidle => absurd hidle hsends

/-- The law reads the B-link, the hold and the lanes. -/
theorem BIdleLaw.congr (hs : BIdleLaw s) (h : t.bLink = s.bLink ∧ t.hold = s.hold ∧ t.lanes = s.lanes) :
    BIdleLaw t := by
  obtain ⟨hb, hh, hl⟩ := h
  unfold BIdleLaw
  rw [hb, hh, hl]
  exact hs

/-- A lane replaced by one that is not issuable. -/
theorem issuable_of_set {l m : LaneId} {ln : Lane} (hl : t.lanes = s.lanes.set l ln) (hn : ¬ ln.Issuable)
    (h : (t.lanes.get m).Issuable) : (s.lanes.get m).Issuable := by
  rw [hl, Table.get_set] at h
  split at h
  · exact absurd h hn
  · exact h

theorem not_issuable_of_state {ln : Lane} (ho : ln.state ≠ .opened) (hd : ln.state ≠ .draining) : ¬ ln.Issuable :=
  fun ⟨_, hs, _⟩ => hs.elim ho hd

theorem not_issuable_faulted (ln : Lane) (n : Nat) : ¬ (ln.faulted n).Issuable := by
  rw [faulted_eq]
  exact not_issuable_of_state (by simp) (by simp)

/-- A lane whose unit has timed out is in FAULT, or was not at work before (R133). -/
theorem bIdleLaw_timeoutUnit (l : LaneId) (v : Issued) {rest : List Issued} (hs : BIdleLaw s) :
    BIdleLaw (timeoutUnit l v (s.setLane l { s.lanes.get l with outstanding := rest })) := by
  refine hs.runs (BRuns.trans (.inl rfl) (runs_timeoutUnit l v).2) fun hfree m hi =>
    ⟨by simpa using hfree, issuable_of_set (l := l) ((timeoutUnit_lanes l v).trans (Table.set_set ..)) ?_ hi⟩
  split
  · exact not_issuable_faulted _ _
  · next hworks =>
    rw [not_or] at hworks
    split
    · exact not_issuable_of_state (by simpa using hworks.1) (by simpa using hworks.2)
    · exact not_issuable_of_state hworks.1 hworks.2

theorem bIdleLaw_requestStop (a : Admin) (l : LaneId) (hs : BIdleLaw s) : BIdleLaw (requestStop a l s) := by
  have hstop : BIdleLaw ((flushCheck (faultEntry l s)).reply a .ok) :=
    hs.runs ((runs_faultEntry l).2.trans (.inl (by simp))) fun hfree m hi =>
      ⟨by simpa using hfree, issuable_of_set (by simpa using faultEntry_lanes s l) (not_issuable_faulted _ _) hi⟩
  unfold requestStop
  split
  · exact hstop
  · exact hstop
  · exact hstop
  all_goals exact hs.congr ⟨rfl, rfl, rfl⟩

theorem bIdleLaw_requestClear (a : Admin) (l : LaneId) (hs : BIdleLaw s) : BIdleLaw (requestClear a l s) := by
  unfold requestClear
  dsimp only
  split
  · split
    · exact hs.congr ⟨rfl, rfl, rfl⟩
    · split
      · exact hs.congr ⟨rfl, rfl, rfl⟩
      · have hcleared : ¬ (s.lanes.get l).cleared.Issuable :=
          not_issuable_of_state (by simp [Lane.cleared]) (by simp [Lane.cleared])
        exact hs.runs (.inl rfl) fun hfree m hi => ⟨hfree, issuable_of_set (l := l) rfl hcleared hi⟩
  · exact hs.congr ⟨rfl, rfl, rfl⟩

theorem bIdleLaw_requestDrain (a : Admin) (l : LaneId) (hs : BIdleLaw s) : BIdleLaw (requestDrain a l s) := by
  unfold requestDrain
  split
  · exact bIdleLaw_choice
  · exact bIdleLaw_choice
  all_goals exact hs.congr ⟨rfl, rfl, rfl⟩

theorem bIdleLaw_refuseRelocate (x : RelocateRec) (r : BackoffReason) (hs : BIdleLaw s) :
    BIdleLaw (refuseRelocate x r s) :=
  hs.runs (bRuns_createB _) fun hfree _ hi => ⟨hfree, hi⟩

theorem not_issuable_reset : ¬ Lane.reset.Issuable :=
  not_issuable_of_state (by simp [Lane.reset]) (by simp [Lane.reset])

/-- A SOFT-RESET frees the port over lanes that hold nothing (R148). -/
theorem bIdleLaw_softReset (hs : BIdleLaw s) : BIdleLaw (softResetState s) := by
  have hlane : ∀ l, (softResetState s).lanes.get l = Lane.reset := fun l => Table.get_replicate ..
  have hback : BRuns s (handBackAll s) := by
    rw [handBackAll_eq]
    exact bRuns_createAllB _
  have hruns : BIdleLaw { handBackAll s with lanes := (softResetState s).lanes } :=
    hs.runs hback fun _ l hi => absurd (hlane l ▸ hi) not_issuable_reset
  intro hidle
  exact ⟨(hruns hidle).1, fun _ l hi => not_issuable_reset (hlane l ▸ hi)⟩

/-- Every effect leaves the B-link transmitter idle only with nothing to send: it ends in the transmitter's choice,
or it makes no lane issuable and frees no port. -/
theorem bIdleLaw_effect (h : Effect s t) (hs : BIdleLaw s) : BIdleLaw t := by
  cases h
  case holdupAsserted | warningTaken | sealAge | writeClassified | relocClassified | groupWrite | resultOk | resultFail
    | resultAborted | grant | holdOffFree | bSendEnd => exact bIdleLaw_choice
  case timeout l n v rest h => exact bIdleLaw_timeoutUnit l v hs
  case residency l h =>
    exact hs.runs (.inl rfl) fun hfree m hi => ⟨hfree, by
      simp only [State.setLane_lanes, Table.get_set] at hi
      split at hi
      · next he => rw [he]; exact hi
      · exact hi⟩
  case relocFull x h => exact bIdleLaw_refuseRelocate x _ hs
  case relocPower x h hm => exact bIdleLaw_refuseRelocate x _ (hs.congr ⟨rfl, rfl, rfl⟩)
  case relocTag x h hm ht => exact bIdleLaw_refuseRelocate x _ (hs.congr ⟨rfl, rfl, rfl⟩)
  case relocLate x h hm => exact bIdleLaw_refuseRelocate x _ (hs.congr ⟨rfl, rfl, rfl⟩)
  case drain a l h => exact bIdleLaw_requestDrain a l (hs.congr ⟨rfl, rfl, rfl⟩)
  case stop a l h => exact bIdleLaw_requestStop a l (hs.congr ⟨rfl, rfl, rfl⟩)
  case clear a l h => exact bIdleLaw_requestClear a l (hs.congr ⟨rfl, rfl, rfl⟩)
  case softReset a h =>
    exact (bIdleLaw_softReset (s := s.takeFront) (hs.congr ⟨rfl, rfl, rfl⟩)).congr ⟨rfl, rfl, rfl⟩
  case holdOnStopping => exact hs.runs (.inl rfl) fun hfree => nomatch hfree
  case holdOnHeld => exact hs.runs (bRuns_createB (s := { s with hold := .held }) _) fun hfree => nomatch hfree
  case holdOffReleasing => exact hs.runs (.inl rfl) fun hfree => nomatch hfree
  all_goals exact hs.congr (by simp)

/-! ## Every step keeps the law -/

/-- The law reads the links, the hold and the lanes. -/
theorem transmitLaw_congr (hs : s.TransmitLaw)
    (h : t.fLink = s.fLink ∧ t.bLink = s.bLink ∧ t.hold = s.hold ∧ t.lanes = s.lanes) : t.TransmitLaw :=
  ⟨FIdleLaw.runs hs.1 (.inl h.1), BIdleLaw.congr hs.2 h.2⟩

theorem transmitLaw_after (h : After s t) (hs : s.TransmitLaw) : t.TransmitLaw := by
  refine after_keeps (I := State.TransmitLaw) ?latch ?held ?input ?flush ?effect s t h hs
  case latch => exact fun s hs => transmitLaw_congr hs ⟨rfl, rfl, rfl, rfl⟩
  case held =>
    exact fun s k n _ _ => ⟨fun _ => rfl, fun _ => ⟨rfl, fun _ l hi => not_issuable_reset (reset_lane l ▸ hi)⟩⟩
  case input => exact fun s r w p hs => transmitLaw_congr hs ⟨rfl, rfl, rfl, rfl⟩
  case flush => exact fun s hs => ⟨FIdleLaw.runs hs.1 fRuns_beginFlush, bIdleLaw_choice⟩
  case effect => exact fun s t h hs => ⟨fIdleLaw_effect h hs.1, bIdleLaw_effect h hs.2⟩

end runs

/-- A tick moves no unit and no block. -/
theorem issuable_tick {ln : Lane} (h : ln.tick.Issuable) : ln.Issuable := by
  simpa [Lane.Issuable, Lane.tick, Lane.ready] using h

/-- Settles O58: a record created leaves its transmitter sending, and whatever may make a lane issuable ends in the
transmitter's choice. -/
theorem transmittersKept : Obligations.TransmittersKept := by
  intro s t hs h
  refine step_keeps (I := State.TransmitLaw) ?queue ?draw (fun _ _ => transmitLaw_after) ?tick hs h
  case queue => exact fun s q hs => transmitLaw_congr hs ⟨rfl, rfl, rfl, rfl⟩
  case draw => exact fun s n hs => transmitLaw_congr hs ⟨rfl, rfl, rfl, rfl⟩
  case tick =>
    intro s ⟨hf, hb⟩
    refine ⟨hf, BIdleLaw.runs hb (.inl rfl) fun hfree l hi => ⟨hfree, issuable_tick ?_⟩⟩
    rwa [show (msTick s).lanes.get l = (s.lanes.get l).tick from Table.get_map ..] at hi

end Sys2Proof.Proofs
end

section
/-! SUPPORT. CLEAR and the requests for lanes 48 to 63 (R94, R104), and the units that leave an outstanding list for
good: matched RESULTs and expired result timers (R97, R99, R101, R102, R122, R124, R129 to R131, R133). -/

namespace Sys2Proof.Proofs
open Sys2Proof Sys2Proof.Machine Sys2Proof.Laws

/-! ## CLEAR, and lanes 48 to 63 -/

/-- A LANE-REQUEST for lanes 48 to 63 is answered BAD-INDEX, whatever its action (R94). -/
theorem exec_laneRequest_badLane {s : State} {id : BitVec 16} {lane : LaneField} {act : LaneAction}
    {rest : List FrontRec} {c : Instr} {f : Admin → LaneId → State → State}
    (h : s.FrontIsNext (.admin ⟨id, .laneRequest lane act⟩) rest) (hl : 48 ≤ lane.val)
    (hc : exec c s = commit s (onLaneRequest s act f)) :
    exec c s = .next (State.latchLevels ((s.frontTaken rest).createF (.adminReply id .badIndex .none))) := by
  rw [hc, onLaneRequest_next h, lane_of_bad hl, commit_some h.1]
  rfl

/-- Settles O35: CLEAR by its checks in order, and the three actions for a lane field that names no lane. -/
theorem clearAndBadLane : Obligations.ClearAndBadLane := by
  rintro s _ id rest lane rfl
  refine ⟨fun h l hl => ?clear, fun c action hc h hl => ?badLane⟩
  case clear =>
    have hexec := exec_laneRequest (c := .clear) (f := requestClear) h hl rfl
    have hlane : (s.frontTaken rest).lanes.get l = s.lanes.get l := rfl
    simp only [hexec, requestClear, hlane]
    refine ⟨fun hrefused => ?state, fun hst ho hr => ?tooSoon, fun hst ho hr => ?cleared⟩
    case state =>
      by_cases hst : (s.lanes.get l).state = .fault
      · rw [if_pos hst, if_pos (hrefused.resolve_left (not_not.mpr hst))]; rfl
      · rw [if_neg hst]; rfl
    case tooSoon => rw [if_pos hst, if_neg (not_not.mpr ho), if_pos hr]; rfl
    case cleared => rw [if_pos hst, if_neg (not_not.mpr ho), if_neg (not_not.mpr hr)]; rfl
  case badLane =>
    simp only [List.mem_cons, Prod.mk.injEq, List.not_mem_nil, or_false] at hc
    obtain ⟨rfl, rfl⟩ | ⟨rfl, rfl⟩ | ⟨rfl, rfl⟩ := hc
    · exact exec_laneRequest_badLane (f := requestDrain) h hl rfl
    · exact exec_laneRequest_badLane (f := requestStop) h hl rfl
    · exact exec_laneRequest_badLane (f := requestClear) h hl rfl

/-! ## A unit that leaves the outstanding list -/

section leaves
variable {xs ys : List Issued} {u : Issued}

/-- The first unit with the block and the index is the one that is matched (R122). -/
theorem takeMatch_first (h : ∀ v ∈ xs, ¬ (v.block = u.block ∧ v.index = u.index)) :
    takeMatch u.block u.index (xs ++ u :: ys) = some (u, xs ++ ys) := by
  induction xs with
  | nil => simp [takeMatch]
  | cons v xs ih =>
    obtain ⟨hv, hrest⟩ := List.forall_mem_cons.mp h
    rw [List.cons_append, takeMatch, if_neg hv, ih hrest]
    rfl

/-- The unit at the place whose timer is due is the one taken (R133). -/
theorem takeDue_at (h : u.timer = 0) : takeDue xs.length (xs ++ u :: ys) = some (u, xs ++ ys) := by
  induction xs with
  | nil => simp [takeDue, h]
  | cons v xs ih =>
    rw [List.cons_append, List.length_cons, takeDue, ih]
    rfl

variable {s : State} {l : LaneId} {ln : Lane}

/-- The lane without the unit that has left its list (R121). -/
theorem lane_without (hlane : s.lanes.get l = { ln with outstanding := xs ++ u :: ys })
    (ho : ln.outstanding = xs ++ ys) : { s.lanes.get l with outstanding := xs ++ ys } = ln := by
  rw [hlane, ← ho]

/-- A RESULT that matches acts on the state without its unit, and the transmitter chooses (R86, R122). -/
theorem exec_matched {lane : LaneField} {i : Fin 2048} {c : Instr} {k : LaneId → Issued → State → State}
    (hwork : s.inReset = false) (hl : lane.val = l.val) (hi : u.index = i.val)
    (hlane : s.lanes.get l = { ln with outstanding := xs ++ u :: ys }) (ho : ln.outstanding = xs ++ ys)
    (hfirst : ∀ v ∈ xs, ¬ (v.block = u.block ∧ v.index = u.index))
    (hst : (ln.state = .opened ∨ ln.state = .draining) ∨ ln.state = .fault)
    (hc : exec c s = commit s (some (onResult lane u.block i k s))) :
    exec c s = .next (State.latchLevels (transmitterChoice (k l u (s.setLane l ln)))) := by
  have hholds : ¬ ((s.lanes.get l).state = .closed ∨ (s.lanes.get l).state = .opening) := by
    rw [hlane]
    obtain (hst | hst) | hst := hst <;> simp [hst]
  have hmatch : takeMatch u.block i.val (s.lanes.get l).outstanding = some (u, xs ++ ys) := by
    rw [hlane, ← hi]
    exact takeMatch_first hfirst
  rw [hc, commit_some hwork, onResult, lane_of_field hl]
  dsimp only
  rw [if_neg hholds, hmatch]
  dsimp only
  rw [lane_without hlane ho]

/-- A result timer that is due acts on the state without its unit (R133). -/
theorem exec_resultTimeout_due {place : Fin 4} (hwork : s.inReset = false)
    (hlane : s.lanes.get l = { ln with outstanding := xs ++ u :: ys }) (ho : ln.outstanding = xs ++ ys)
    (hplace : xs.length = place.val) (hdue : u.timer = 0) :
    exec (.resultTimeout l place) s = .next (State.latchLevels (timeoutUnit l u (s.setLane l ln))) := by
  have htake : takeDue place.val (s.lanes.get l).outstanding = some (u, xs ++ ys) := by
    rw [hlane, ← hplace]
    exact takeDue_at hdue
  rw [show exec (.resultTimeout l place) s = execResultTimeout l place s from rfl, execResultTimeout, htake]
  dsimp only
  rw [lane_without hlane ho, commit_some hwork]

end leaves

/-! ## What the lane does then -/

section afterUnit
variable {s : State} {l : LaneId} {ln : Lane} {u : Issued}

/-- An OPEN lane, and a DRAINING lane with work left, go on (R97). -/
theorem afterUnit_goesOn (hlane : s.lanes.get l = ln) (hst : ln.state = .opened ∨ ln.state = .draining)
    (hwork : ln.state = .opened ∨ ln.holdsWork = true) : afterUnit l s = s := by
  have hfault : ln.state ≠ .fault := by obtain hst | hst := hst <;> simp [hst]
  have hwaits : ¬ (ln.state = .draining ∧ ln.holdsWork = false) := by
    rintro ⟨hdrain, hidle⟩
    obtain hw | hw := hwork
    · simp [hw] at hdrain
    · simp [hw] at hidle
  rw [afterUnit, hlane, if_neg hfault, checkDrain, hlane]
  exact if_neg hwaits

/-- A DRAINING lane with nothing left completes its drain (R97). -/
theorem afterUnit_drains (hlane : s.lanes.get l = ln) (hst : ln.state = .draining) (hidle : ln.holdsWork = false) :
    afterUnit l s = (s.setLane l ln.drained).createAllB (ln.drainGivebacks l) := by
  rw [afterUnit, hlane, if_neg (by simp [hst]), checkDrain, hlane]
  rw [if_pos ⟨hst, hidle⟩, completeDrain_eq, hlane]

/-- The handbacks of drain completion: the current block PARTIAL or UNUSED, then the reserve stack UNUSED (R97). -/
theorem drainGivebacks_eq (l : LaneId) (ln : Lane) : ln.drainGivebacks l =
    (match ln.current with
      | some k => [.giveback (LaneId.field l) k (if ln.nextIndex = 0 then .unused else .partlyUsed)
          (if ln.nextIndex = 0 then none else some ln.nextIndex)]
      | none => [])
      ++ ln.reserve.map fun b => .giveback (LaneId.field l) b .unused none := by
  unfold Lane.drainGivebacks
  cases hc : ln.current with
  | none => rfl
  | some b => by_cases hn : ln.nextIndex = 0 <;> simp [hn]

/-- A lane in FAULT with units outstanding, or without a current block, hands back nothing (R102). -/
theorem faultedHandback_waits (hlane : s.lanes.get l = ln) (h : ln.outstanding ≠ [] ∨ ln.current = none) :
    faultedHandback l s = s := by
  unfold faultedHandback
  rw [hlane]
  dsimp only
  split
  · next ho => rw [h.resolve_left (not_not.mpr ho)]
  · rfl

/-- A lane in FAULT whose list is empty hands back its current block FAULTED (R102). -/
theorem faultedHandback_hands {k : BlockAddr} (hlane : s.lanes.get l = ln) (ho : ln.outstanding = [])
    (hc : ln.current = some k) : faultedHandback l s =
      (s.setLane l { ln with current := none, nextIndex := 0 }).createB
        (.giveback (LaneId.field l) k .faulted none) := by
  unfold faultedHandback
  rw [hlane]
  dsimp only
  rw [if_pos ho, hc]
  rfl

/-- In FAULT a settled unit calls for the FAULTED handback alone (R101, R102). -/
theorem settleUnit_fault (ok : Bool) (hst : (s.lanes.get l).state = .fault) :
    settleUnit ok l u s = flushCheck (faultedHandback l (settleEntries ok u.entries s)) := by
  rw [settleUnit, afterUnit, if_pos (by simpa using hst)]

end afterUnit

/-- Settles O37: the matched unit is settled; the lane goes on, or its drain is complete. -/
theorem resultOk : Obligations.ResultOk := by
  rintro s _ lane l ln u i xs ys hwork hl hi hlane ho hfirst hst rfl
  have hexec := exec_matched (c := .resultOk lane u.block i) (k := settleUnit true) hwork hl hi hlane ho hfirst
    (.inl hst) rfl
  have hkept : (settleEntries true u.entries (s.setLane l ln)).lanes.get l = ln := by simp
  rw [hexec, settleUnit]
  refine ⟨fun hgoes => ?goesOn, fun hdrain hidle => ?drains⟩
  case goesOn => rw [afterUnit_goesOn hkept hst hgoes]; rfl
  case drains => rw [afterUnit_drains hkept hdrain hidle, drainGivebacks_eq, field_of_lane hl]; rfl

/-! ## The unit given up -/

section givenUp
variable {s : State} {l : LaneId} {u : Issued}

/-- The third FAIL of a unit (R129). -/
theorem failUnit_third (hst : (s.lanes.get l).state ≠ .fault) (h : 3 ≤ u.attempt) :
    failUnit l u s = failLane l u s := by
  unfold failUnit
  dsimp only
  rw [if_neg hst]
  exact if_pos h

/-- An ABORTED unit of a third attempt, in the current block (R129, R130). -/
theorem abortUnit_third (hst : (s.lanes.get l).state ≠ .fault) (h : 3 ≤ u.attempt)
    (hc : (s.lanes.get l).current = some u.block) : abortUnit l u s = failLane l u s := by
  unfold abortUnit
  dsimp only
  rw [if_neg hst, if_pos (by simp [Lane.blockCurrent, hc])]
  exact if_pos h

/-- In FAULT a FAIL settles its unit failed (R101). -/
theorem failUnit_fault (hst : (s.lanes.get l).state = .fault) : failUnit l u s = settleUnit false l u s :=
  if_pos hst

/-- In FAULT an ABORTED settles its unit failed (R101). -/
theorem abortUnit_fault (hst : (s.lanes.get l).state = .fault) : abortUnit l u s = settleUnit false l u s :=
  if_pos hst

end givenUp

/-- Settles O39: the third failure settles the unit failed and enters FAULT; in FAULT the outcome says how the unit is
settled, and the FAULTED handback waits for an empty list. -/
theorem unitGivenUp : Obligations.UnitGivenUp := by
  intro s base lane l ln u i xs ys c hwork hl hi hlane ho hfirst hcase
  have hbase : base.lanes.get l = ln := by obtain ⟨_, rfl⟩ | ⟨_, rfl⟩ := hcase <;> simp
  have hexec (hst : (ln.state = .opened ∨ ln.state = .draining) ∨ ln.state = .fault) :
      ∃ act : LaneId → Issued → State → State,
        exec c s = .next (State.latchLevels (transmitterChoice (act l u base)))
          ∧ (c = .resultFail lane u.block i ∧ act = failUnit ∨ c = .resultAborted lane u.block i ∧ act = abortUnit
            ∨ c = .resultOk lane u.block i ∧ act = settleUnit true) := by
    have hmatched {c : Instr} {k : LaneId → Issued → State → State} :=
      exec_matched (c := c) (k := k) hwork hl hi hlane ho hfirst hst
    obtain ⟨rfl, rfl⟩ | ⟨rfl | rfl, rfl⟩ := hcase
    · exact ⟨failUnit, hmatched (k := fun l u t => failUnit l u (takeCapture .programFail l u (t.raise .programFail)))
        rfl, .inl ⟨rfl, rfl⟩⟩
    · exact ⟨abortUnit, hmatched (k := abortUnit) rfl, .inr (.inl ⟨rfl, rfl⟩)⟩
    · exact ⟨settleUnit true, hmatched (k := settleUnit true) rfl, .inr (.inr ⟨rfl, rfl⟩)⟩
  refine ⟨fun hst hthird hfails => ?third, fun hst r hr => ?fault⟩
  case third =>
    obtain ⟨act, hact, hout⟩ := hexec (.inl hst)
    have hlive : (base.lanes.get l).state ≠ .fault := by
      rw [hbase]
      obtain hst | hst := hst <;> simp [hst]
    have hfail : act l u base = failLane l u base := by
      obtain ⟨rfl, rfl⟩ | ⟨rfl, rfl⟩ | ⟨rfl, rfl⟩ := hout
      · exact failUnit_third hlive hthird
      · exact abortUnit_third hlive hthird (by simpa [hbase] using hfails)
      · simp at hfails
    rw [hact, hfail, failLane]
  case fault =>
    obtain ⟨act, hact, hout⟩ := hexec (.inr hst)
    have hfault : (base.lanes.get l).state = .fault := by rw [hbase, hst]
    have hsettle : act l u base = flushCheck (faultedHandback l r) := by
      rw [hr, ← settleUnit_fault _ hfault]
      obtain ⟨rfl, rfl⟩ | ⟨rfl, rfl⟩ | ⟨rfl, rfl⟩ := hout
      · rw [failUnit_fault hfault, decide_eq_false (by simp)]
      · rw [abortUnit_fault hfault, decide_eq_false (by simp)]
      · rw [decide_eq_true rfl]
    have hkept : r.lanes.get l = ln := by rw [hr]; simpa using hbase
    rw [hact, hsettle]
    refine ⟨fun hwaits => ?waits, fun k hempty hk => ?hands⟩
    case waits => rw [faultedHandback_waits hkept (by rwa [ho])]
    case hands => rw [faultedHandback_hands hkept (by rw [ho, hempty]) hk, field_of_lane hl]

/-! ## The expired result timer -/

/-- What an expiry does to a lane that is not in FAULT: it enters it (R133). -/
theorem timeoutUnit_live {s : State} {l : LaneId} {u : Issued}
    (hst : (s.lanes.get l).state = .opened ∨ (s.lanes.get l).state = .draining) :
    timeoutUnit l u s = flushCheck (faultEntry l
      (takeCapture .resultTimeout l u ((settleEntries false u.entries s).raise .resultTimeout))) := by
  unfold timeoutUnit
  dsimp only
  rw [if_pos (by simpa using hst)]

/-- What an expiry does to a lane in FAULT: the FAULTED handback can follow (R102, R133). -/
theorem timeoutUnit_fault {s : State} {l : LaneId} {u : Issued} (hst : (s.lanes.get l).state = .fault) :
    timeoutUnit l u s = flushCheck (faultedHandback l
      (takeCapture .resultTimeout l u ((settleEntries false u.entries s).raise .resultTimeout))) := by
  unfold timeoutUnit
  dsimp only
  rw [if_neg (by simp [hst]), if_pos (by simpa using hst)]

/-- Settles O40: the unit is settled failed and captured; the lane enters FAULT, or is in it and its handback waits for
an empty list. -/
theorem resultTimeout : Obligations.ResultTimeout := by
  intro s r l ln u place xs ys hwork hlane ho hplace hdue hr
  have hset : (s.setLane l ln).lanes.get l = ln := by simp
  have hkept : r.lanes.get l = ln := by rw [hr]; simp
  have hfault (hst : ln.state = .fault) :
      exec (.resultTimeout l place) s = .next (State.latchLevels (flushCheck (faultedHandback l r))) := by
    rw [exec_resultTimeout_due hwork hlane ho hplace hdue, timeoutUnit_fault (by rw [hset, hst]), hr]
    rfl
  refine ⟨fun hst => ?live, fun hst hwaits => ?waits, fun k hst hempty hk => ?hands⟩
  case live =>
    rw [exec_resultTimeout_due hwork hlane ho hplace hdue, timeoutUnit_live (by rwa [hset]), hr]
    rfl
  case waits => rw [hfault hst, faultedHandback_waits hkept (by rwa [ho])]
  case hands => rw [hfault hst, faultedHandback_hands hkept (by rw [ho, hempty]) hk]

end Sys2Proof.Proofs
end

section
/-! SUPPORT. GRANTs (R109, R115 to R117): the checks in the words of the claims, what a GRANT that fails one hands back,
and what an accepted one makes of its lane. -/

namespace Sys2Proof.Proofs
open Sys2Proof Sys2Proof.Machine Sys2Proof.Laws

/-! ## The checks -/

section checks
variable {s : State} {f : LaneField} {l : LaneId} {b : BlockAddr}

theorem mem_laneBlocks {ln : Lane} : b ∈ ln.blocks ↔ ln.current = some b ∨ b ∈ ln.reserve := by
  simp [Lane.blocks]

/-- The second check looks for the block among those that the lanes hold (R109, R116). -/
theorem holdsBlock_iff : s.holdsBlock b = true ↔ b ∈ s.blocks := by
  simp [State.holdsBlock, State.blocks, mem_laneBlocks]

theorem refusesGrant_iff {ln : Lane} : ln.refusesGrant = true ↔
    ln.state = .closed ∨ ln.state = .fault ∨ (ln.state = .draining ∧ ln.current ≠ none) := by
  simp [Lane.refusesGrant, or_assoc, Option.isSome_iff_ne_none]

theorem exec_grant (hwork : s.inReset = false) :
    exec (.grant f b) s = .next (State.latchLevels (transmitterChoice (takeGrant f b s))) := commit_some hwork _

/-- A GRANT for lanes 48 to 63 fails the first check (R116). -/
theorem takeGrant_badLane (h : 48 ≤ f.val) : takeGrant f b s = refuseGrant f b .refused s := by
  rw [takeGrant, lane_of_bad h]

/-- The checks of a GRANT for a lane, in their order (R116). -/
theorem takeGrant_lane (h : f.val = l.val) : takeGrant f b s =
    if (s.lanes.get l).refusesGrant then refuseGrant f b .refused s
    else if b ∈ s.blocks then refuseGrant f b .duplicate s
    else if 8 ≤ (s.lanes.get l).reserve.length then refuseGrant f b .full s
    else acceptGrant l b s := by
  simp only [takeGrant, lane_of_field h, holdsBlock_iff]

/-- A GRANT is refused, or its block is new and joins a lane whose stack is not full (R116). -/
theorem takeGrant_cases (s : State) (f : LaneField) (b : BlockAddr) :
    (∃ why, takeGrant f b s = refuseGrant f b why s)
      ∨ ∃ l : LaneId, b ∉ s.blocks ∧ (s.lanes.get l).reserve.length < 8 ∧ takeGrant f b s = acceptGrant l b s := by
  obtain hf | hf := Nat.lt_or_ge f.val 48
  · rw [takeGrant_lane (l := ⟨f.val, hf⟩) rfl]
    split
    · exact .inl ⟨_, rfl⟩
    split
    · exact .inl ⟨_, rfl⟩
    split
    · exact .inl ⟨_, rfl⟩
    · next hnew hroom => exact .inr ⟨_, hnew, Nat.lt_of_not_le hroom, rfl⟩
  · exact .inl ⟨_, takeGrant_badLane hf⟩

end checks

/-- Settles O42: the first check that fails decides the reason, and a refusal creates its GIVEBACK and raises
GRANT-REFUSED. -/
theorem grantRefused : Obligations.GrantRefused := by
  intro s f b why hwork hfails
  suffices h : takeGrant f b s = refuseGrant f b why s by rw [exec_grant hwork, h]; rfl
  obtain ⟨hbad, rfl⟩ | ⟨l, hl, bad, hiff, hfails⟩ := hfails
  · exact takeGrant_badLane hbad
  rw [takeGrant_lane hl.symm]
  rw [← refusesGrant_iff] at hiff
  obtain ⟨hbad, rfl⟩ | ⟨hgood, hheld, rfl⟩ | ⟨hgood, hnew, hfull, rfl⟩ := hfails
  · rw [if_pos (hiff.mp hbad)]
  · rw [if_neg (mt hiff.mpr hgood), if_pos hheld]
  · rw [if_neg (mt hiff.mpr hgood), if_neg hnew, if_pos hfull]

/-! ## Acceptance -/

section accepted
variable {s : State} {l : LaneId} {b : BlockAddr} {ln : Lane}

/-- An accepted GRANT said whole: the block is pushed, and the lane seeks the block it needs (R117). -/
theorem acceptGrant_eq (s : State) (l : LaneId) (b : BlockAddr) : acceptGrant l b s =
    (s.setLane l ((grantedLane b (s.lanes.get l)).seek s.settings.refillMark)).createAllB
      ((grantedLane b (s.lanes.get l)).seekWant l s.settings.refillMark) := by
  rw [acceptGrant, seekBlock_eq]
  simp [State.setLane, grantedLane]

/-- A lane with a current block keeps the block granted on its stack (R111). -/
theorem granted_stays (hc : ln.current ≠ none) (mark : Nat) :
    (grantedLane b ln).seek mark = grantedLane b ln ∧ (grantedLane b ln).seekWant l mark = [] := by
  have hneeds : (grantedLane b ln).needsBlock = false := by
    simp [Lane.needsBlock, grantedLane, Option.isSome_iff_ne_none, hc]
  simp [Lane.seek, Lane.seekWant, hneeds]

/-- A lane that needs a block pops the one granted, and its want flag, cleared by the GRANT, is set again by the want
check (R111, R115, R117). -/
theorem granted_pops (hs : ln.state = .opening ∨ ln.state = .opened ∨ ln.state = .draining) (hc : ln.current = none)
    (mark : Nat) :
    (grantedLane b ln).seek mark = { ln with
        current := some b, nextIndex := 0
        state := if ln.state = .opening then .opened else ln.state
        want := decide (ln.reserve.length ≤ mark) }
      ∧ (grantedLane b ln).seekWant l mark =
        if ln.reserve.length ≤ mark then [.want l (8 - ln.reserve.length)] else [] := by
  have hneeds : (grantedLane b ln).needsBlock = true := by
    obtain hs | hs | hs := hs <;> simp [Lane.needsBlock, grantedLane, hs, hc]
  constructor
  · rw [Lane.seek, if_pos hneeds]
    dsimp only [grantedLane]
    by_cases hmark : ln.reserve.length ≤ mark
    · rw [if_pos hmark, decide_eq_true hmark]; rfl
    · rw [if_neg hmark, decide_eq_false hmark]; rfl
  · rw [Lane.seekWant, if_pos ⟨hneeds, rfl⟩]
    rfl

/-- A GRANT that passes the three checks (R116, R117). -/
theorem exec_grant_accepted {f : LaneField} (hwork : s.inReset = false) (hl : f.val = l.val)
    (hgood : (s.lanes.get l).refusesGrant ≠ true) (hnew : b ∉ s.blocks) (hroom : (s.lanes.get l).reserve.length < 8) :
    exec (.grant f b) s = .next (State.latchLevels (transmitterChoice (acceptGrant l b s))) := by
  rw [exec_grant hwork, takeGrant_lane hl, if_neg hgood, if_neg hnew, if_neg (Nat.not_le.mpr hroom)]

end accepted

/-- Settles O43: the block pushed stays on the stack of a lane with a current block, and is popped by a lane that needs
one. -/
theorem grantAccepted : Obligations.GrantAccepted := by
  rintro s f b l ln hwork hl rfl hnew hroom
  have haccepts (hgood : (s.lanes.get l).refusesGrant ≠ true) := exec_grant_accepted hwork hl hgood hnew hroom
  rw [ne_eq, refusesGrant_iff] at haccepts
  refine ⟨fun hc hs => ?stays, fun hc hs => ?pops⟩
  case stays =>
    obtain ⟨hlane, hwant⟩ := granted_stays (l := l) (b := b) hc s.settings.refillMark
    rw [haccepts (by obtain hs | hs := hs <;> simp [hs]), acceptGrant_eq, hlane, hwant]
    rfl
  case pops =>
    obtain ⟨hlane, hwant⟩ := granted_pops (l := l) (b := b) hs hc s.settings.refillMark
    rw [haccepts (by obtain hs | hs | hs := hs <;> simp [hs, hc]), acceptGrant_eq, hlane, hwant]

end Sys2Proof.Proofs
end

section
/-! SUPPORT. The law of the blocks (R109): an effect gives no lane a block that it did not hold, but for an accepted
GRANT, whose block no lane holds. -/

namespace Sys2Proof.Proofs
open Sys2Proof Sys2Proof.Machine

/-! ## The blocks of one lane -/

/-- The second lane context holds no block but the first one's, in their order, and its reserve stack is no higher. -/
structure GainsNoBlock (a b : Lane) : Prop where
  blocks  : b.blocks.Sublist a.blocks
  reserve : b.reserve.length ≤ a.reserve.length

section lane
variable {a b c ln : Lane}

theorem GainsNoBlock.refl (a : Lane) : GainsNoBlock a a := ⟨.refl _, Nat.le_refl _⟩

theorem GainsNoBlock.trans (hab : GainsNoBlock a b) (hbc : GainsNoBlock b c) : GainsNoBlock a c :=
  ⟨hbc.blocks.trans hab.blocks, hbc.reserve.trans hab.reserve⟩

theorem GainsNoBlock.of_eq (hc : b.current = a.current) (hr : b.reserve = a.reserve) : GainsNoBlock a b :=
  ⟨by rw [Lane.blocks, Lane.blocks, hc, hr], by rw [hr]⟩

/-- A lane that loses its current block, its reserve stack or both. -/
theorem GainsNoBlock.of_lost (hc : b.current = none ∨ b.current = a.current)
    (hr : b.reserve = [] ∨ b.reserve = a.reserve) :
    GainsNoBlock a b := by
  refine ⟨?_, by obtain hr | hr := hr <;> simp [hr]⟩
  unfold Lane.blocks
  refine List.Sublist.append ?_ ?_
  · obtain hc | hc := hc <;> simp [hc]
  · obtain hr | hr := hr <;> simp [hr]

/-- Seeking a block moves the top of the stack to the current block, and the lane holds what it held (R111). -/
@[simp] theorem seek_blocks (mark : Nat) (ln : Lane) : (ln.seek mark).blocks = ln.blocks := by
  obtain ⟨_, h⟩ | ⟨_, _, h⟩ | ⟨b, rest, hn, hr, hc, _, hrest, _⟩ := seek_cases ln mark
  · rw [h]
  · rw [h]; rfl
  · have hnone : ln.current = none := by
      simp only [Lane.needsBlock, Bool.and_eq_true, Option.isNone_iff_eq_none] at hn
      exact hn.2
    simp [Lane.blocks, hc, hrest, hnone, hr]

theorem seek_reserve_length (mark : Nat) (ln : Lane) : (ln.seek mark).reserve.length ≤ ln.reserve.length := by
  obtain ⟨_, h⟩ | ⟨_, _, h⟩ | ⟨b, rest, _, hr, _, _, hrest, _⟩ := seek_cases ln mark
  · rw [h]
  · rw [h]
  · simp [hrest, hr]

theorem gainsNoBlock_seek (mark : Nat) (ln : Lane) : GainsNoBlock ln (ln.seek mark) :=
  ⟨by rw [seek_blocks], seek_reserve_length mark ln⟩

theorem GainsNoBlock.seek (h : GainsNoBlock a b) (mark : Nat) : GainsNoBlock a (b.seek mark) :=
  h.trans (gainsNoBlock_seek mark b)

theorem gainsNoBlock_dropBlock (ln : Lane) : GainsNoBlock ln ln.dropBlock := .of_lost (.inl rfl) (.inr rfl)

theorem gainsNoBlock_advanced (per mark : Nat) (ln : Lane) : GainsNoBlock ln (ln.advanced per mark) := by
  unfold Lane.advanced
  split
  · have hdone : GainsNoBlock ln { ln.dropBlock with blocksCompleted := ln.blocksCompleted + 1 } :=
        .of_lost (.inl rfl) (.inr rfl)
    exact hdone.seek mark
  · exact .of_eq rfl rfl

theorem gainsNoBlock_emptied (ln : Lane) : GainsNoBlock ln ln.emptied := by
  unfold Lane.emptied
  split
  · exact gainsNoBlock_dropBlock ln
  · exact .refl ln

theorem gainsNoBlock_checked (ln : Lane) : GainsNoBlock ln ln.checked := by
  unfold Lane.checked
  split
  · exact .of_lost (.inl rfl) (.inl rfl)
  · exact .refl ln

theorem gainsNoBlock_faulted (n : Nat) (ln : Lane) : GainsNoBlock ln (ln.faulted n) := by
  unfold Lane.faulted
  refine GainsNoBlock.trans ?_ (gainsNoBlock_emptied _)
  exact .of_lost (.inr rfl) (.inl rfl)

@[simp] theorem sealWaiting_reserve (ln : Lane) (U : Nat) : (ln.sealWaiting U).reserve = ln.reserve := by
  obtain ⟨_, _, _, h⟩ | ⟨_, h⟩ := sealWaiting_cases ln U <;> simp [h]

/-- A lane that issues a unit holds its blocks, but for one that the unit completes (R83, R112). -/
theorem gainsNoBlock_issued {ln' : Lane} {u : SealedUnit} (hp : ln.popReady = some (u, ln')) (k : BlockAddr)
    (again : Bool) (timeout per mark U : Nat) :
    GainsNoBlock ln (((ln'.sent timeout u k again).advanced per mark).sealWaiting U) := by
  obtain ⟨q, f, rfl⟩ := popReady_changes hp
  have hsent : GainsNoBlock ln (Lane.sent timeout u k again { ln with requeued := q, fresh := f }) := .of_eq rfl rfl
  exact (hsent.trans (gainsNoBlock_advanced per mark _)).trans (.of_eq (by simp) (by simp))

end lane

/-! ## The blocks of every lane -/

/-- No lane of the second state holds a block that it did not hold in the first. -/
def NoBlockGained (s t : State) : Prop := ∀ l, GainsNoBlock (s.lanes.get l) (t.lanes.get l)

section operations
variable {s t u : State}

theorem NoBlockGained.trans (hst : NoBlockGained s t) (htu : NoBlockGained t u) : NoBlockGained s u :=
  fun l => (hst l).trans (htu l)

theorem NoBlockGained.of_lanes (h : t.lanes = s.lanes) : NoBlockGained s t := fun l => by rw [h]; exact .refl _

theorem NoBlockGained.of_reset (h : t.lanes = .replicate 48 Lane.reset) : NoBlockGained s t := fun l => by
  rw [h, Table.get_replicate]
  exact .of_lost (.inl rfl) (.inl rfl)

theorem NoBlockGained.set {l : LaneId} {ln : Lane} (h : t.lanes = s.lanes.set l ln)
    (hl : GainsNoBlock (s.lanes.get l) ln) : NoBlockGained s t := fun m => by
  rw [h, Table.get_set]
  split
  · next e => rw [e]; exact hl
  · exact .refl _

theorem noBlockGained_choice : NoBlockGained s (transmitterChoice s) := by
  obtain ⟨h, _⟩ | ⟨r, rest, _, _, h⟩ | ⟨l, _, _, _, _, hi, h⟩ := transmitterChoice_cases s
  · exact .of_lanes (by rw [h])
  · exact .of_lanes (by rw [h])
  · obtain ⟨v, ln, k, hp, hk⟩ := issuable_pop hi
    rw [h]
    exact .set (issue_lanes s l hp hk) (gainsNoBlock_issued hp _ _ _ _ _ _)

/-- An operation followed by the transmitter's choice. -/
theorem NoBlockGained.choice (h : NoBlockGained s t) : NoBlockGained s (transmitterChoice t) :=
  h.trans noBlockGained_choice

theorem noBlockGained_beginFlush : NoBlockGained s (beginFlush s) := by
  unfold beginFlush
  refine NoBlockGained.choice fun l => ?_
  exact .of_eq (by simp [Lane.flush]) (by simp [Lane.flush])

/-! ## Results -/

variable {l : LaneId} {v : Issued}

theorem noBlockGained_settleUnit (ok : Bool) : NoBlockGained s (settleUnit ok l v s) := by
  refine .set (settleUnit_lanes ok l v) ?_
  split
  · exact gainsNoBlock_emptied _
  · exact gainsNoBlock_checked _

theorem noBlockGained_failLane : NoBlockGained s (failLane l v s) :=
  .set (failLane_lanes l v) (gainsNoBlock_faulted _ _)

theorem noBlockGained_abandonBlock : NoBlockGained s (abandonBlock l v s) :=
  .set (abandonBlock_lanes l v) ((gainsNoBlock_dropBlock _).seek _)

theorem noBlockGained_requeueUnit (n : Nat) : NoBlockGained s (requeueUnit l v n s) := .set rfl (.of_eq rfl rfl)

theorem noBlockGained_failUnit : NoBlockGained s (failUnit l v s) := by
  unfold failUnit
  dsimp only
  split
  · exact noBlockGained_settleUnit false
  split
  · exact noBlockGained_failLane
  split
  · exact noBlockGained_abandonBlock.trans (noBlockGained_requeueUnit _)
  · exact noBlockGained_requeueUnit _

theorem noBlockGained_abortUnit : NoBlockGained s (abortUnit l v s) := by
  unfold abortUnit
  dsimp only
  split
  · exact noBlockGained_settleUnit false
  split
  · split
    · exact noBlockGained_failLane
    · exact noBlockGained_abandonBlock.trans (noBlockGained_requeueUnit _)
  · exact noBlockGained_requeueUnit _

theorem noBlockGained_timeoutUnit : NoBlockGained s (timeoutUnit l v s) := by
  refine .set (timeoutUnit_lanes l v) ?_
  split
  · exact gainsNoBlock_faulted _ _
  split
  · exact gainsNoBlock_emptied _
  · exact .refl _

/-! ## Requests, GROUP writes and acceptance -/

theorem noBlockGained_requestDrain (a : Admin) : NoBlockGained s (requestDrain a l s) := by
  have hlane : GainsNoBlock (s.lanes.get l)
      { Lane.sealOrFlag s.settings.unitSize { s.lanes.get l with state := .draining } with sealAge := none } :=
    .of_eq (by simp) (by simp)
  have hdrain : NoBlockGained s (drainLane l s) := .set (drainLane_lanes l) (hlane.trans (gainsNoBlock_checked _))
  have hdrained : NoBlockGained s (transmitterChoice ((flushCheck (drainLane l s)).reply a .ok)) :=
    (hdrain.trans (.of_lanes (by simp))).choice
  unfold requestDrain
  split
  · exact hdrained
  · exact hdrained
  all_goals exact .of_lanes (by simp)

theorem noBlockGained_requestStop (a : Admin) : NoBlockGained s (requestStop a l s) := by
  have hfault : NoBlockGained s (faultEntry l s) := .set (faultEntry_lanes s l) (gainsNoBlock_faulted _ _)
  have hstopped : NoBlockGained s ((flushCheck (faultEntry l s)).reply a .ok) := hfault.trans (.of_lanes (by simp))
  unfold requestStop
  split
  · exact hstopped
  · exact hstopped
  · exact hstopped
  all_goals exact .of_lanes (by simp)

theorem noBlockGained_requestClear (a : Admin) : NoBlockGained s (requestClear a l s) := by
  unfold requestClear
  dsimp only
  split
  · split
    · exact .of_lanes (by simp)
    split
    · exact .of_lanes (by simp)
    · exact .set (l := l) (ln := (s.lanes.get l).cleared) rfl (.of_eq rfl rfl)
  · exact .of_lanes (by simp)

/-- A lane that a GROUP write claims seeks a block on its own stack (R41, R91). -/
theorem noBlockGained_storeGroup (a : Admin) (g : GroupId) (fields : List (Byte × BitVec 64)) :
    NoBlockGained s (storeGroup a g fields s) := by
  obtain ⟨st, h⟩ | ⟨d, hl, hd, hpass⟩ := storeGroup_cases s a g fields
  · exact .of_lanes (by simp [h])
  obtain ⟨lanes, h, hlanes⟩ := storeGroup_stored hl hd hpass a
  intro m
  rw [h]
  simp only [State.reply_lanes, createAllB_frame, hlanes]
  split
  · have hclaimed : GainsNoBlock (s.lanes.get m) (claimedLane g (s.lanes.get m)) := .of_eq rfl rfl
    exact hclaimed.seek _
  · exact .refl _

theorem noBlockGained_placeSectors (xs : List Sector) : NoBlockGained s (placeSectors l xs s) :=
  .set rfl (.of_eq (by simp) (by simp))

theorem noBlockGained_countBackoff : NoBlockGained s (countBackoff l s) := .set rfl (.of_eq rfl rfl)

theorem noBlockGained_classifyWrite (w : WriteRec) : NoBlockGained s (classifyWrite w s) := by
  unfold classifyWrite
  dsimp only
  split
  · split
    · exact .of_lanes (by simp)
    next k _ =>
    split
    · exact NoBlockGained.trans (t := s.setFrontTag w.tag _) (.of_lanes rfl) (noBlockGained_placeSectors (l := k) _)
    · exact (noBlockGained_countBackoff (l := k)).trans (.of_lanes (by simp))
  · exact .of_lanes (by simp)

theorem noBlockGained_classifyRelocate (r : RelocateRec) : NoBlockGained s (classifyRelocate r s) := by
  unfold classifyRelocate
  dsimp only
  split
  · exact .of_lanes (by simp)
  next k _ =>
  split
  · exact NoBlockGained.trans (t := s.setRelocTag r.tag _) (.of_lanes rfl) (noBlockGained_placeSectors (l := k) _)
  · exact (noBlockGained_countBackoff (l := k)).trans (.of_lanes (by simp))

end operations

/-! ## The law -/

section law
variable {s t : State} {l : LaneId} {k : BlockAddr}

/-- The law lane by lane: each holds a block at most once, no two hold the same, and no stack holds more than 8. -/
theorem blockLaw_iff (s : State) : s.BlockLaw ↔
    (∀ l, (s.lanes.get l).blocks.Nodup) ∧ (∀ l m, l ≠ m → (s.lanes.get l).blocks.Disjoint (s.lanes.get m).blocks)
      ∧ ∀ l, (s.lanes.get l).reserve.length ≤ 8 := by
  rw [State.BlockLaw, State.blocks, List.nodup_flatMap, items_eq, List.pairwise_ofFn, and_assoc]
  refine and_congr List.forall_mem_ofFn_iff (and_congr_left' ⟨fun h l m hne => ?_, fun h l m hlt => h l m hlt.ne⟩)
  obtain hlt | hlt := lt_or_gt_of_ne hne
  · exact h hlt
  · exact (h hlt).symm

theorem blockLaw_of_noGain (hs : s.BlockLaw) (h : NoBlockGained s t) : t.BlockLaw := by
  rw [blockLaw_iff] at hs ⊢
  obtain ⟨hnodup, hdisjoint, hlength⟩ := hs
  exact ⟨fun l => (hnodup l).sublist (h l).blocks,
    fun l m hne _ hl hm => hdisjoint l m hne ((h l).blocks.subset hl) ((h m).blocks.subset hm),
    fun l => (h l).reserve.trans (hlength l)⟩

theorem mem_blocks : k ∈ s.blocks ↔ ∃ l, k ∈ (s.lanes.get l).blocks := by
  simp [State.blocks, Table.mem_items]

/-- The block granted joins those of its lane, in the stack or as the current block (R117). -/
theorem granted_blocks (k : BlockAddr) (ln : Lane) (mark : Nat) :
    ((grantedLane k ln).seek mark).blocks.Perm (k :: ln.blocks) := by
  rw [seek_blocks]
  exact List.perm_middle

/-- An accepted GRANT keeps the law: no lane holds its block, and the stack has room for it (R116, R117). -/
theorem blockLaw_acceptGrant (hs : s.BlockLaw) (hnew : k ∉ s.blocks) (hroom : (s.lanes.get l).reserve.length < 8) :
    (acceptGrant l k s).BlockLaw := by
  have hlanes : (acceptGrant l k s).lanes
      = s.lanes.set l ((grantedLane k (s.lanes.get l)).seek s.settings.refillMark) := by simp [acceptGrant_eq]
  have hblocks := granted_blocks k (s.lanes.get l) s.settings.refillMark
  have hother : ∀ m, k ∉ (s.lanes.get m).blocks := fun m hm => hnew (mem_blocks.mpr ⟨m, hm⟩)
  rw [blockLaw_iff] at hs ⊢
  obtain ⟨hnodup, hdisjoint, hlength⟩ := hs
  have happart : ∀ m, m ≠ l →
      ((grantedLane k (s.lanes.get l)).seek s.settings.refillMark).blocks.Disjoint (s.lanes.get m).blocks := by
    intro m hne x hx hm
    obtain rfl | hx := List.mem_cons.mp (hblocks.mem_iff.mp hx)
    · exact hother m hm
    · exact hdisjoint l m hne.symm hx hm
  simp only [hlanes, Table.get_set]
  refine ⟨fun m => ?nodup, fun m n hne => ?disjoint, fun m => ?length⟩
  case nodup =>
    split
    · exact hblocks.nodup_iff.mpr (List.nodup_cons.mpr ⟨hother l, hnodup l⟩)
    · exact hnodup m
  case disjoint =>
    split
    · next hm => rw [if_neg (hm ▸ hne.symm)]; exact happart n (hm ▸ hne.symm)
    split
    · next hm _ => exact (happart m hm).symm
    · exact hdisjoint m n hne
  case length =>
    split
    · exact (seek_reserve_length _ _).trans hroom
    · exact hlength m

theorem blockLaw_takeGrant (hs : s.BlockLaw) (f : LaneField) (k : BlockAddr) : (takeGrant f k s).BlockLaw := by
  obtain ⟨why, h⟩ | ⟨l, hnew, hroom, h⟩ := takeGrant_cases s f k
  · exact blockLaw_of_noGain hs (.of_lanes (by simp [h]))
  · rw [h]; exact blockLaw_acceptGrant hs hnew hroom

/-! ## Every step keeps the law -/

/-- An effect gives no lane a block, or it is that of a GRANT. -/
theorem effect_noBlockGained (h : Effect s t) : NoBlockGained s t ∨ ∃ f k, t = transmitterChoice (takeGrant f k s) := by
  have htaken : NoBlockGained s s.takeFront := .of_lanes rfl
  have hserved : NoBlockGained s (State.countAccess { s with inHand := none }) := .of_lanes rfl
  have hlifted : ∀ (l : LaneId) (rest : List Issued),
      NoBlockGained s (s.setLane l { s.lanes.get l with outstanding := rest }) := fun l rest =>
    .set rfl (.of_eq rfl rfl)
  cases h
  case grant f k => exact .inr ⟨f, k, rfl⟩
  all_goals left
  case holdupAsserted =>
    exact NoBlockGained.trans (t := { s with holdupPin := true }) (.of_lanes rfl) noBlockGained_beginFlush
  case warningTaken => exact noBlockGained_beginFlush
  case sealAge l h => exact NoBlockGained.choice (.set rfl (.of_eq (by simp) (by simp)))
  case timeout l n u rest h => exact (hlifted l rest).trans noBlockGained_timeoutUnit
  case residency l h => exact .set rfl (.of_eq rfl rfl)
  case writeClassified w h hm hp => exact (hserved.trans (noBlockGained_classifyWrite w)).choice
  case relocClassified x h hm hp => exact (hserved.trans (noBlockGained_classifyRelocate x)).choice
  case groupWrite a g fields h => exact (htaken.trans (noBlockGained_storeGroup a g fields)).choice
  case drain a l h => exact htaken.trans (noBlockGained_requestDrain a)
  case stop a l h => exact htaken.trans (noBlockGained_requestStop a)
  case clear a l h => exact htaken.trans (noBlockGained_requestClear a)
  case softReset a h => exact .of_reset (by simp)
  case resultOk l u rest b i hl h => exact ((hlifted l rest).trans (noBlockGained_settleUnit true)).choice
  case resultFail l u rest b i hl h =>
    exact (((hlifted l rest).trans (.of_lanes (by simp))).trans noBlockGained_failUnit).choice
  case resultAborted l u rest b i hl h => exact ((hlifted l rest).trans noBlockGained_abortUnit).choice
  case holdOffFree h hp => exact NoBlockGained.choice (.of_lanes rfl)
  case bSendEnd r h => exact NoBlockGained.choice (.of_lanes (by simp))
  all_goals exact .of_lanes (by simp)

theorem blockLaw_effect (h : Effect s t) (hs : s.BlockLaw) : t.BlockLaw := by
  obtain h | ⟨f, k, rfl⟩ := effect_noBlockGained h
  · exact blockLaw_of_noGain hs h
  · exact blockLaw_of_noGain (blockLaw_takeGrant hs f k) noBlockGained_choice

theorem blockLaw_after (h : After s t) (hs : s.BlockLaw) : t.BlockLaw := by
  refine after_keeps (I := State.BlockLaw) ?latch ?held ?input ?flush ?effect s t h hs
  case latch => exact fun s hs => blockLaw_of_noGain hs (.of_lanes rfl)
  case held => exact fun s k n hs _ => blockLaw_of_noGain hs (.of_reset rfl)
  case input => exact fun s r w p hs => blockLaw_of_noGain hs (.of_lanes rfl)
  case flush => exact fun s hs => blockLaw_of_noGain hs noBlockGained_beginFlush
  case effect => exact fun s t h hs => blockLaw_effect h hs

end law

/-- Settles O55: only an accepted GRANT gives a lane a block, and its checks have found the block new and the stack with
room. -/
theorem blocksKept : Obligations.BlocksKept := by
  intro s t hs h
  refine step_keeps (I := State.BlockLaw) ?queue ?draw (fun _ _ => blockLaw_after) ?tick hs h
  case queue => exact fun s q hs => blockLaw_of_noGain hs (.of_lanes rfl)
  case draw => exact fun s n hs => blockLaw_of_noGain hs (.of_lanes rfl)
  case tick =>
    refine fun s hs => blockLaw_of_noGain hs fun l => ?_
    exact .of_eq (by simp [msTick, Lane.tick]) (by simp [msTick, Lane.tick])

end Sys2Proof.Proofs
end

section
/-! SUPPORT. The reads of LANE and UNIT (R72, R113, R121, R167 to R169). -/

namespace Sys2Proof.Proofs
open Sys2Proof Sys2Proof.Machine Sys2Proof.Laws

/-! ## The slots of a lane -/

/-- A lane is starved, in the words of the claims (R113). -/
theorem starved_eq (ln : Lane) : ln.starved =
    decide ((ln.state = .opened ∨ ln.state = .draining) ∧ ln.current = none ∧ ln.reserve = []) := by
  rw [Bool.eq_iff_iff]
  simp [Lane.starved, and_assoc]

/-- The ready queue by its two runs: the re-queued units stand ahead of the fresh ones (R72). -/
theorem ready_getElem? (ln : Lane) (n : Nat) : ln.ready[n]? =
    if n < ln.requeued.length then ln.requeued[n]? else ln.fresh[n - ln.requeued.length]? :=
  List.getElem?_append

/-- Slot 0 is the filling unit (R169). -/
theorem slot_filling (ln : Lane) : ln.slot 0 = .filling ln.filling := if_pos rfl

/-- Slots 1 to 8 are the ready queue, head first, each unit with the run it stands in (R169). -/
theorem slot_ready (ln : Lane) {n : Nat} (hlow : 1 ≤ n) (hhigh : n ≤ 8) : ln.slot n =
    match ln.requeued[n - 1]?, ln.fresh[n - 1 - ln.requeued.length]? with
    | some u, _ => .ready u true
    | none, some u => .ready u false
    | none, none => .empty := by
  rw [Lane.slot, if_neg (by omega), if_pos hhigh, ready_getElem?]
  by_cases hrun : n - 1 < ln.requeued.length
  · simp [hrun]
  · simp only [hrun, if_false, decide_false, List.getElem?_eq_none (Nat.le_of_not_lt hrun)]
    cases ln.fresh[n - 1 - ln.requeued.length]? <;> rfl

/-- Slots 9 to 12 are the outstanding list, oldest first (R169). -/
theorem slot_outstanding (ln : Lane) {n : Nat} (h : 9 ≤ n) : ln.slot n =
    match ln.outstanding[n - 9]? with
    | some u => .outstanding u
    | none => .empty :=
  (if_neg (by omega)).trans (if_neg (by omega))

/-- A UNIT index is lane × 13 + slot (R169). -/
theorem lookUnit_slot (s : State) (l : LaneId) {slot n : Nat} (hslot : slot < 13) (hn : n = l.val * 13 + slot) :
    lookUnit s n = .unit ((s.lanes.get l).slot slot) := by
  have hlane : n / 13 = l.val := by omega
  have hmod : n % 13 = slot := by omega
  rw [lookUnit, fieldBelow_some.mpr hlane, hmod]

/-! ## The reads -/

/-- Settles O20: both tables are read by the rule of every table; a UNIT index names a lane and one of its slots. -/
theorem laneAndUnitReads : Obligations.LaneAndUnitReads := by
  intro s id index rest
  refine ⟨fun h => ?lane, fun h => ?unit⟩
  case lane =>
    obtain ⟨hbad, hok⟩ := exec_read (c := .laneTableRead) (t := .lane) (look := lookLane) h rfl rfl
    refine ⟨hbad, fun l hl => ?_⟩
    rw [hok (hl ▸ l.isLt), lookLane, fieldBelow_some.mpr hl.symm]
    dsimp only
    rw [Lane.summary, readyCount_eq, starved_eq]
    rfl
  case unit =>
    obtain ⟨hbad, hok⟩ := exec_read (c := .unitTableRead) (t := .unit) (look := lookUnit) h rfl rfl
    refine ⟨hbad, fun l slot hslot hindex =>
      ⟨(s.lanes.get l).slot slot, ?read, ?filling, slot_ready _, slot_outstanding _⟩⟩
    case read =>
      have hsize : tableSize .unit = 624 := rfl
      have hrange : index.toNat < tableSize .unit := by omega
      rw [hok hrange, lookUnit_slot _ l hslot hindex]
      rfl
    case filling => rintro rfl; exact slot_filling _

end Sys2Proof.Proofs
end

section
/-! SUPPORT. RESULTs that match no unit (R123), and those that re-queue their unit, its block abandoned if it is current
(R126 to R128, R130). -/

namespace Sys2Proof.Proofs
open Sys2Proof Sys2Proof.Machine Sys2Proof.Laws

/-! ## A RESULT that matches no unit -/

/-- A RESULT whose lane field names no lane, or whose lane has no such unit outstanding, raises UNMATCHED-RESULT alone,
whatever a match would do (R123). -/
theorem onResult_unmatched {s : State} {f : LaneField} {b : BlockAddr} {i : Fin 2048}
    (h : 48 ≤ f.val ∨ ∃ l : LaneId, l.val = f.val
      ∧ ((s.lanes.get l).state = .closed ∨ (s.lanes.get l).state = .opening
        ∨ ∀ u ∈ (s.lanes.get l).outstanding, ¬ (u.block = b ∧ u.index = i.val)))
    (k : LaneId → Issued → State → State) : onResult f b i k s = s.raise .unmatchedResult := by
  obtain hbad | ⟨l, hl, hlane⟩ := h
  · rw [onResult, lane_of_bad hbad]
  rw [onResult, lane_of_field hl.symm]
  dsimp only
  split
  · rfl
  · next hholds =>
    have hnone := (or_assoc.mpr hlane).resolve_left hholds
    rw [takeMatch_none.mpr hnone]

/-- Settles O36: the three results go through one match, which finds no unit. -/
theorem unmatchedResult : Obligations.UnmatchedResult := by
  intro s f b i c hwork hc hlane
  have hunmatched (k : LaneId → Issued → State → State) : commit s (some (onResult f b i k s)) =
      .next (State.latchLevels (s.raise .unmatchedResult)) := by
    rw [onResult_unmatched hlane, commit_some hwork]
  simp only [List.mem_cons, List.not_mem_nil, or_false] at hc
  obtain rfl | rfl | rfl := hc
  · exact hunmatched (settleUnit true)
  · exact hunmatched fun l u t => failUnit l u (takeCapture .programFail l u (t.raise .programFail))
  · exact hunmatched abortUnit

/-! ## A unit that is re-queued -/

section requeued
variable {s : State} {l : LaneId} {ln : Lane} {u : Issued}

/-- A lane replaced twice is the last replacement. -/
theorem setLane_setLane (s : State) (l : LaneId) (x y : Lane) : (s.setLane l x).setLane l y = s.setLane l y := by
  simp [State.setLane]

/-- A capture reads no lane, so that it commutes with the change of one (R159). -/
theorem takeCapture_setLane (k : CaptureKind) (x : Source) (ln : Lane) :
    takeCapture k l u ((s.setLane l ln).raise x) = (takeCapture k l u (s.raise x)).setLane l ln := by
  by_cases hroom : s.captures.length < Config.captureCap <;>
  · simp only [takeCapture, State.raise_captures, State.setLane_captures, hroom, if_true, if_false]
    rfl

/-- The lane that abandons its current block, and whose failed unit is re-queued: the block is dropped, the next
is sought, and the unit joins the re-queued run (R126, R128). -/
def requeuedSeeking (mark : Nat) (u : Issued) (ln : Lane) : Lane :=
  (ln.dropBlock.seek mark).requeue u (u.attempt + 1)

/-- The abandoned block and the re-queued unit said whole: the lane, the GIVEBACK BAD and the WANT behind it (R126,
R128). -/
theorem requeueUnit_abandonBlock (hlane : s.lanes.get l = ln) :
    requeueUnit l u (u.attempt + 1) (abandonBlock l u s) =
      (s.setLane l (requeuedSeeking s.settings.refillMark u ln)).createAllB
        (.giveback (LaneId.field l) u.block .bad (some u.index) :: ln.dropBlock.seekWant l s.settings.refillMark) := by
  rw [requeueUnit, abandonBlock, seekBlock_eq, setLane_createAllB, State.giveback, createB_eq, setLane_createAllB,
    setLane_createAllB, createAllB_createAllB]
  simp [setLane_setLane, hlane, requeuedSeeking]

/-- A FAIL before the third attempt re-queues its unit, after the block is abandoned if it is current (R126, R127). -/
theorem failUnit_requeues (hst : (s.lanes.get l).state ≠ .fault) (h : u.attempt < 3) :
    failUnit l u s = requeueUnit l u (u.attempt + 1)
      (if (s.lanes.get l).current = some u.block then abandonBlock l u s else s) := by
  unfold failUnit
  dsimp only
  rw [if_neg hst, if_neg (Nat.not_le.mpr h)]
  by_cases hc : (s.lanes.get l).current = some u.block <;> simp [Lane.blockCurrent, hc]

/-- An ABORTED unit whose block is not current is re-queued with its attempt as it was (R130). -/
theorem abortUnit_otherBlock (hst : (s.lanes.get l).state ≠ .fault) (hc : (s.lanes.get l).current ≠ some u.block) :
    abortUnit l u s = requeueUnit l u u.attempt s := by
  unfold abortUnit
  dsimp only
  rw [if_neg hst, if_neg (by simpa [Lane.blockCurrent] using hc)]

/-- An ABORTED unit of the current block is treated as a FAIL before the third attempt is (R130). -/
theorem abortUnit_currentBlock (hst : (s.lanes.get l).state ≠ .fault) (hc : (s.lanes.get l).current = some u.block)
    (h : u.attempt < 3) : abortUnit l u s = requeueUnit l u (u.attempt + 1) (abandonBlock l u s) := by
  unfold abortUnit
  dsimp only
  rw [if_neg hst, if_pos (by simp [Lane.blockCurrent, hc]), if_neg (Nat.not_le.mpr h)]

theorem needsBlock_dropBlock (hs : ln.state = .opened ∨ ln.state = .draining) : ln.dropBlock.needsBlock = true := by
  obtain hs | hs := hs <;> simp [Lane.needsBlock, Lane.dropBlock, hs]

/-- Over an empty stack the lane wants 8 (R115, R126). -/
theorem requeuedSeeking_dry (hs : ln.state = .opened ∨ ln.state = .draining) (hr : ln.reserve = []) (mark : Nat) :
    ln.dropBlock.seekWant l mark = (if ln.want then [] else [.want l 8])
      ∧ requeuedSeeking mark u ln = { ln with
          current := none, nextIndex := 0, want := true
          requeued := ln.requeued ++ [⟨u.entries, u.attempt + 1⟩] } := by
  have hneeds := needsBlock_dropBlock hs
  constructor
  · cases hw : ln.want <;> simp [Lane.seekWant, hneeds, hr, hw]
  · rw [requeuedSeeking, Lane.seek, if_pos hneeds]
    simp [Lane.requeue, Lane.dropBlock, hr]

/-- Over a stack its top becomes the current block, and the lane makes the want check against the refill mark (R111,
R115, R126). -/
theorem requeuedSeeking_pops (hs : ln.state = .opened ∨ ln.state = .draining) {x : BlockAddr} {rest : List BlockAddr}
    (hr : ln.reserve = x :: rest) (mark : Nat) :
    ln.dropBlock.seekWant l mark = (if ln.want = false ∧ rest.length ≤ mark then [.want l (8 - rest.length)] else [])
      ∧ requeuedSeeking mark u ln = { ln with
          current := some x, nextIndex := 0, reserve := rest, want := ln.want || decide (rest.length ≤ mark)
          requeued := ln.requeued ++ [⟨u.entries, u.attempt + 1⟩] } := by
  have hneeds := needsBlock_dropBlock hs
  have hopen : ln.state ≠ .opening := by obtain hs | hs := hs <;> simp [hs]
  constructor
  · cases hw : ln.want <;> simp [Lane.seekWant, hneeds, hr, hw]
  · rw [requeuedSeeking, Lane.seek, if_pos hneeds]
    by_cases hmark : rest.length ≤ mark <;>
      simp [Lane.requeue, Lane.dropBlock, Lane.pop, hr, hmark, hopen]

end requeued

/-- Settles O38: a FAIL and an ABORTED that fault nothing differ in the attempt that a unit of another block keeps; the
current block is abandoned over an empty stack or over one with a block to pop. -/
theorem failedUnitRequeued : Obligations.FailedUnitRequeued := by
  intro s base lane l ln u i xs ys c hwork hl hi hlane ho hfirst hst hcase
  have hmatched {c : Instr} {k : LaneId → Issued → State → State} :=
    exec_matched (c := c) (k := k) hwork hl hi hlane ho hfirst (.inl hst)
  have hkept : base.lanes = s.lanes ∧ base.settings = s.settings := by
    obtain ⟨_, _, rfl⟩ | ⟨_, rfl⟩ := hcase <;> simp
  obtain ⟨hlanes, hsettings⟩ := hkept
  have hstate (x : Lane) : base.setLane l x = { base with lanes := s.lanes.set l x } := by rw [← hlanes]; rfl
  have hset : (base.setLane l ln).lanes.get l = ln := by simp
  have hlive : ((base.setLane l ln).lanes.get l).state ≠ .fault := by
    rw [hset]
    obtain hst | hst := hst <;> simp [hst]
  have hfail (hc : c = .resultFail lane u.block i)
      (hbase : base = takeCapture .programFail l u (s.raise .programFail)) :
      exec c s = .next (State.latchLevels (transmitterChoice (failUnit l u (base.setLane l ln)))) := by
    rw [hc, hbase, hmatched (k := fun l u t => failUnit l u (takeCapture .programFail l u (t.raise .programFail))) rfl,
      takeCapture_setLane]
  have habort (hc : c = .resultAborted lane u.block i) (hbase : base = s) :
      exec c s = .next (State.latchLevels (transmitterChoice (abortUnit l u (base.setLane l ln)))) := by
    rw [hc, hbase, hmatched (k := abortUnit) rfl]
  refine ⟨fun hother => ?other, fun hcurrent hthird => ?current⟩
  case other =>
    rw [← hset] at hother
    have hrequeue (n : Nat) : requeueUnit l u n (base.setLane l ln) =
        { base with lanes := s.lanes.set l { ln with requeued := ln.requeued ++ [⟨u.entries, n⟩] } } := by
      rw [requeueUnit, hset, setLane_setLane]
      exact hstate _
    obtain ⟨hc, hattempt, hbase⟩ | ⟨hc, hbase⟩ := hcase
    · rw [hfail hc hbase, failUnit_requeues hlive hattempt, if_neg hother, hrequeue, if_neg (by simp [hc])]
    · rw [habort hc hbase, abortUnit_otherBlock hlive hother, hrequeue, if_pos hc]
  case current =>
    rw [← hset] at hcurrent
    have habandon : requeueUnit l u (u.attempt + 1) (abandonBlock l u (base.setLane l ln)) = State.createAllB
        { base with lanes := s.lanes.set l (requeuedSeeking s.settings.refillMark u ln) }
        (.giveback lane u.block .bad (some u.index) :: ln.dropBlock.seekWant l s.settings.refillMark) := by
      rw [← hsettings, requeueUnit_abandonBlock hset, setLane_setLane, State.setLane_settings, hstate, field_of_lane hl]
    have hexec : exec c s = .next (State.latchLevels (transmitterChoice
        (requeueUnit l u (u.attempt + 1) (abandonBlock l u (base.setLane l ln))))) := by
      obtain ⟨hc, _, hbase⟩ | ⟨hc, hbase⟩ := hcase
      · rw [hfail hc hbase, failUnit_requeues hlive hthird, if_pos hcurrent]
      · rw [habort hc hbase, abortUnit_currentBlock hlive hcurrent hthird]
    rw [hexec, habandon]
    refine ⟨fun hr => ?dry, fun x rest hr => ?pops⟩
    case dry =>
      obtain ⟨hwant, hseek⟩ := requeuedSeeking_dry (l := l) (u := u) hst hr s.settings.refillMark
      rw [hwant, hseek]
    case pops =>
      obtain ⟨hwant, hseek⟩ := requeuedSeeking_pops (l := l) (u := u) hst hr s.settings.refillMark
      rw [hwant, hseek]

end Sys2Proof.Proofs
end

section
/-! SUPPORT. The hold handshake, by the state of the hold that HOLD-ON and HOLD-OFF find (R138 to R140). -/

namespace Sys2Proof.Proofs
open Sys2Proof Sys2Proof.Machine Sys2Proof.Laws

section hold
variable {s : State}

/-- A PROGRAM is being sent, in the words of the claims (R138). -/
theorem sendsProgram_iff {t : BLink} :
    t.sendsProgram = true ↔ ∃ l b i n U es, t.sending = some (.program l b i n U es) := by
  rw [BLink.sendsProgram, Option.any_eq_true]
  constructor
  · rintro ⟨r, hr, hprogram⟩
    cases r
    case program => exact ⟨_, _, _, _, _, _, hr⟩
    all_goals exact absurd hprogram Bool.false_ne_true
  · rintro ⟨l, b, i, n, U, es, hr⟩
    exact ⟨_, hr, rfl⟩

/-- A HOLD-ACK waits exactly when it is being sent or stands in the control list (R139). -/
theorem ackWaits_iff : s.bLink.ackWaits = true ↔ .holdAck ∈ s.outB := by
  simp [BLink.ackWaits, State.outB]

/-- HOLD-ON in FREE: the hold waits for a PROGRAM being sent, or is acknowledged at once (R138). -/
theorem exec_holdOn_free (hwork : s.inReset = false) (h : s.hold = .free) : exec .holdOn s =
    .next (State.latchLevels (if s.bLink.sendsProgram then { s with hold := .stopping }
      else State.createB { s with hold := .held } .holdAck)) := by
  rw [show exec .holdOn s = execHoldOn s from rfl, execHoldOn, h]
  exact commit_some hwork _

/-- HOLD-OFF in HELD: the release waits for a HOLD-ACK, or is made at once (R139). -/
theorem exec_holdOff_held (hwork : s.inReset = false) (h : s.hold = .held) : exec .holdOff s =
    .next (State.latchLevels (if s.bLink.ackWaits then { s with hold := .releasing }
      else transmitterChoice (State.createB { s with hold := .free } .holdClear))) := by
  rw [show exec .holdOff s = execHoldOff s from rfl, execHoldOff, h]
  exact commit_some hwork _

/-- HOLD-OFF in STOPPING (R139). -/
theorem exec_holdOff_stopping (hwork : s.inReset = false) (h : s.hold = .stopping) :
    exec .holdOff s = .next (State.latchLevels { s with hold := .releasing }) := by
  rw [show exec .holdOff s = execHoldOff s from rfl, execHoldOff, h]
  exact commit_some hwork _

/-- HOLD-ON outside FREE violates the protocol (R140). -/
theorem exec_holdOn_violates (hwork : s.inReset = false) (h : s.hold ≠ .free) :
    exec .holdOn s = .next (State.latchLevels (s.raise .holdProtocol)) := by
  rw [show exec .holdOn s = execHoldOn s from rfl, execHoldOn, commit_some hwork]
  cases hh : s.hold with
  | free => exact absurd hh h
  | stopping | held | releasing => rfl

/-- HOLD-OFF in FREE or RELEASING violates the protocol (R140). -/
theorem exec_holdOff_violates (hwork : s.inReset = false) (h : s.hold = .free ∨ s.hold = .releasing) :
    exec .holdOff s = .next (State.latchLevels (s.raise .holdProtocol)) := by
  rw [show exec .holdOff s = execHoldOff s from rfl, execHoldOff, commit_some hwork]
  obtain h | h := h <;> rw [h] <;> rfl

end hold

/-- Settles O44: each state of the hold has one rule for each record; what is being sent or waits decides between the
two answers of FREE and of HELD. -/
theorem holdHandshake : Obligations.HoldHandshake := by
  intro s hwork
  refine ⟨fun h => ⟨fun hprogram => ?stopping, fun hprogram => ?acknowledged⟩,
    fun h => ⟨fun hack => ?releasing, fun hack => ?cleared⟩, exec_holdOff_stopping hwork, exec_holdOn_violates hwork,
    exec_holdOff_violates hwork⟩
  case stopping => rw [exec_holdOn_free hwork h, if_pos (sendsProgram_iff.mpr hprogram)]
  case acknowledged =>
    have hsends : ¬ s.bLink.sendsProgram = true := by
      rw [sendsProgram_iff]
      rintro ⟨l, b, i, n, U, es, hr⟩
      exact hprogram l b i n U es hr
    rw [exec_holdOn_free hwork h, if_neg hsends]
  case releasing => rw [exec_holdOff_held hwork h, if_pos (ackWaits_iff.mpr hack)]
  case cleared => rw [exec_holdOff_held hwork h, if_neg (mt ackWaits_iff.mp hack)]

end Sys2Proof.Proofs
end

section
/-! SUPPORT. The law of the flush (R145): an effect outside RUN gives no idle lane work, and the completion check makes
the mode FLUSHED only over idle lanes. -/

namespace Sys2Proof.Proofs
open Sys2Proof Sys2Proof.Machine

/-! ## The completion check -/

/-- No work is held exactly when every lane is idle (R145). -/
theorem workHeld_eq_false {s : State} : s.workHeld = false ↔ ∀ l, (s.lanes.get l).holdsWork = false :=
  Table.any_items_false

/-- Settles O32: no lane holds work exactly when the three parts of every lane are empty. -/
theorem flushCompletion : Obligations.FlushCompletion := by
  intro s
  simp only [← holdsWork_eq_false]
  refine ⟨fun hm hidle => ?complete, fun h => ?waits⟩
  case complete => exact if_pos ⟨hm, workHeld_eq_false.mpr hidle⟩
  case waits =>
    refine if_neg fun ⟨hm, hwork⟩ => ?_
    obtain hmode | ⟨l, hl⟩ := h
    · exact hmode hm
    · exact hl (workHeld_eq_false.mp hwork l)

/-! ## Operations that give no lane work -/

/-- No lane that is idle in the first state holds work in the second. -/
def NoWorkGained (s t : State) : Prop := ∀ l, (s.lanes.get l).holdsWork = false → (t.lanes.get l).holdsWork = false

section operations
variable {s t u : State} {l : LaneId}

theorem NoWorkGained.trans (hst : NoWorkGained s t) (htu : NoWorkGained t u) : NoWorkGained s u :=
  fun l h => htu l (hst l h)

theorem NoWorkGained.of_lanes (h : t.lanes = s.lanes) : NoWorkGained s t := fun l hl => by rwa [h]

theorem NoWorkGained.set {ln : Lane} (h : t.lanes = s.lanes.set l ln)
    (hl : (s.lanes.get l).holdsWork = false → ln.holdsWork = false) : NoWorkGained s t := fun m hm => by
  rw [h, Table.get_set]
  split
  · next e => exact hl (e ▸ hm)
  · exact hm

theorem seek_holdsWork (mark : Nat) (ln : Lane) : (ln.seek mark).holdsWork = ln.holdsWork := by
  simp [Lane.holdsWork]

/-- Sealing or flagging the filling unit neither adds nor ends work. -/
theorem sealOrFlag_holdsWork (U : Nat) (ln : Lane) : (ln.sealOrFlag U).holdsWork = ln.holdsWork :=
  flush_holdsWork U ln

theorem checked_holdsWork (ln : Lane) : ln.checked.holdsWork = ln.holdsWork := by
  unfold Lane.checked
  split <;> rfl

theorem emptied_holdsWork (ln : Lane) : ln.emptied.holdsWork = ln.holdsWork := by
  unfold Lane.emptied
  split <;> rfl

/-- FAULT entry discards what is not outstanding (R100). -/
theorem faulted_idle {ln : Lane} (n : Nat) (h : ln.holdsWork = false) : (ln.faulted n).holdsWork = false := by
  obtain ⟨-, -, hout⟩ := holdsWork_eq_false.mp h
  rw [Lane.faulted, emptied_holdsWork]
  exact holdsWork_eq_false.mpr ⟨rfl, rfl, hout⟩

theorem noWorkGained_drainLane : NoWorkGained s (drainLane l s) :=
  .set (drainLane_lanes l) fun h => (checked_holdsWork _).trans ((drainingLane_holdsWork _ _).trans h)

theorem noWorkGained_faultEntry : NoWorkGained s (faultEntry l s) := .set (faultEntry_lanes s l) (faulted_idle _)

theorem noWorkGained_claims (g : GroupId) (ls : List LaneId) (s : State) :
    NoWorkGained s (ls.foldl (claimLane g) s) := by
  induction ls generalizing s with
  | nil => exact .of_lanes rfl
  | cons l ls ih =>
    exact .trans (.set (claimLane_lanes s g l) fun h => (seek_holdsWork _ _).trans h) (ih (claimLane g s l))

theorem noWorkGained_storeGroup (a : Admin) (g : GroupId) (l : List (Byte × BitVec 64)) :
    NoWorkGained s (storeGroup a g l s) := by
  unfold storeGroup
  split
  · exact .of_lanes rfl
  · split
    · exact .of_lanes rfl
    · dsimp only
      split
      · exact .of_lanes rfl
      · exact noWorkGained_claims g _ { s with groups := s.groups.set g _ }

theorem noWorkGained_takeGrant (f : LaneField) (b : BlockAddr) : NoWorkGained s (takeGrant f b s) := by
  obtain ⟨why, h⟩ | ⟨l, _, _, h⟩ := takeGrant_cases s f b
  · exact .of_lanes (by simp [h])
  · rw [h]
    have hlanes : (acceptGrant l b s).lanes
        = s.lanes.set l ((grantedLane b (s.lanes.get l)).seek s.settings.refillMark) := by simp [acceptGrant_eq]
    exact .set hlanes fun hl => (seek_holdsWork _ _).trans hl

theorem noWorkGained_requestClear (a : Admin) : NoWorkGained s (requestClear a l s) := by
  unfold requestClear
  dsimp only
  split
  · split
    · exact .of_lanes rfl
    · split
      · exact .of_lanes rfl
      · exact .set (l := l) rfl id
  · exact .of_lanes rfl

/-- A tick moves no unit (R75, R132). -/
theorem tick_holdsWork (ln : Lane) : ln.tick.holdsWork = ln.holdsWork := by simp [Lane.tick, Lane.holdsWork]

theorem noWorkGained_msTick : NoWorkGained s (msTick s) := fun l h => by
  rw [show (msTick s).lanes.get l = (s.lanes.get l).tick from Table.get_map .., tick_holdsWork, h]

/-! ## The law after one operation -/

/-- Outside FLUSHED the law asks nothing. -/
theorem flushedLaw_of_mode (h : s.mode ≠ .flushed) : s.FlushedLaw := fun hm => absurd hm h

theorem flushedLaw_gain (hs : s.FlushedLaw) (hm : t.mode = s.mode) (hl : NoWorkGained s t) : t.FlushedLaw :=
  fun hflushed l => hl l (hs (hm ▸ hflushed) l)

/-- The law reads the mode and the lanes. -/
theorem flushedLaw_congr (hs : s.FlushedLaw) (h : t.mode = s.mode ∧ t.lanes = s.lanes) : t.FlushedLaw :=
  flushedLaw_gain hs h.1 (.of_lanes h.2)

/-- The completion check finds every lane idle before it makes the mode FLUSHED. -/
theorem flushedLaw_flushCheck (hs : s.FlushedLaw) : (flushCheck s).FlushedLaw := by
  unfold flushCheck
  split
  · next h => exact fun _ => workHeld_eq_false.mp h.2
  · exact hs

/-- The transmitter issues a unit only from a lane that holds work. -/
theorem flushedLaw_choice (hs : s.FlushedLaw) : (transmitterChoice s).FlushedLaw := by
  obtain ⟨h, _⟩ | ⟨r, rest, _, _, h⟩ | ⟨l, _, _, _, _, ⟨hready, _⟩, _⟩ := transmitterChoice_cases s
  · rwa [h]
  · rw [h]; exact hs
  · refine flushedLaw_of_mode fun hm => hready ?_
    rw [show (transmitterChoice s).mode = s.mode by simp] at hm
    exact (holdsWork_eq_false.mp (hs hm l)).2.1

theorem flushedLaw_beginFlush : (beginFlush s).FlushedLaw := by
  rw [beginFlush_eq]
  exact flushedLaw_choice (flushedLaw_flushCheck (flushedLaw_of_mode nofun))

theorem flushedLaw_requestDrain (a : Admin) (hs : s.FlushedLaw) : (requestDrain a l s).FlushedLaw := by
  have hdrained : (transmitterChoice ((flushCheck (drainLane l s)).reply a .ok)).FlushedLaw :=
    flushedLaw_choice (flushedLaw_congr
      (flushedLaw_flushCheck (flushedLaw_gain hs (by simp) noWorkGained_drainLane)) ⟨rfl, rfl⟩)
  unfold requestDrain
  split
  · exact hdrained
  · exact hdrained
  all_goals exact flushedLaw_congr hs ⟨rfl, rfl⟩

theorem flushedLaw_requestStop (a : Admin) (hs : s.FlushedLaw) : (requestStop a l s).FlushedLaw := by
  have hstopped : ((flushCheck (faultEntry l s)).reply a .ok).FlushedLaw :=
    flushedLaw_congr (flushedLaw_flushCheck (flushedLaw_gain hs (by simp) noWorkGained_faultEntry)) ⟨rfl, rfl⟩
  unfold requestStop
  split
  · exact hstopped
  · exact hstopped
  · exact hstopped
  all_goals exact flushedLaw_congr hs ⟨rfl, rfl⟩

/-! ## Units that leave an outstanding list -/

/-- While the law holds, a lane with a unit outstanding says that the mode is not FLUSHED. -/
theorem not_flushed_of_outstanding (hs : s.FlushedLaw) (h : (s.lanes.get l).outstanding ≠ []) : s.mode ≠ .flushed :=
  fun hm => h (holdsWork_eq_false.mp (hs hm l)).2.2

section leaves
variable {v : Issued}

theorem flushedLaw_settleUnit (ok : Bool) (h : s.mode ≠ .flushed) : (settleUnit ok l v s).FlushedLaw :=
  flushedLaw_flushCheck (flushedLaw_of_mode (by simpa using h))

theorem flushedLaw_failLane (h : s.mode ≠ .flushed) : (failLane l v s).FlushedLaw :=
  flushedLaw_flushCheck (flushedLaw_of_mode (by simpa using h))

theorem flushedLaw_requeueUnit (n : Nat) (h : s.mode ≠ .flushed) : (requeueUnit l v n s).FlushedLaw :=
  flushedLaw_of_mode (by simpa using h)

theorem flushedLaw_failUnit (h : s.mode ≠ .flushed) : (failUnit l v s).FlushedLaw := by
  unfold failUnit
  dsimp only
  split
  · exact flushedLaw_settleUnit _ h
  · split
    · exact flushedLaw_failLane h
    · split
      · exact flushedLaw_requeueUnit _ (by simpa using h)
      · exact flushedLaw_requeueUnit _ h

theorem flushedLaw_abortUnit (h : s.mode ≠ .flushed) : (abortUnit l v s).FlushedLaw := by
  unfold abortUnit
  dsimp only
  split
  · exact flushedLaw_settleUnit _ h
  · split
    · split
      · exact flushedLaw_failLane h
      · exact flushedLaw_requeueUnit _ (by simpa using h)
    · exact flushedLaw_requeueUnit _ h

theorem flushedLaw_timeoutUnit (h : s.mode ≠ .flushed) : (timeoutUnit l v s).FlushedLaw := by
  refine flushedLaw_flushCheck (flushedLaw_of_mode ?_)
  split
  · simpa using h
  · split <;> simpa using h

end leaves

/-! ## Every step keeps the law -/

/-- A matched unit stood in the list. -/
theorem outstanding_of_takeMatch {b : BlockAddr} {i : Nat} {us rest : List Issued} {v : Issued}
    (h : takeMatch b i us = some (v, rest)) : us ≠ [] := by
  rintro rfl
  cases h

/-- So did a unit whose timer is due. -/
theorem outstanding_of_takeDue {n : Nat} {us rest : List Issued} {v : Issued} (h : takeDue n us = some (v, rest)) :
    us ≠ [] := by
  rintro rfl
  cases n <;> cases h

/-- Every effect keeps the law: only a placement gives an idle lane work, and its mode is RUN; only a completion check
makes the mode FLUSHED. -/
theorem flushedLaw_effect (h : Effect s t) (hs : s.FlushedLaw) : t.FlushedLaw := by
  have hmatched : ∀ {l v rest b i}, takeMatch b i (s.lanes.get l).outstanding = some (v, rest) →
      s.mode ≠ .flushed := fun h => not_flushed_of_outstanding hs (outstanding_of_takeMatch h)
  cases h
  case holdupAsserted | warningTaken => exact flushedLaw_beginFlush
  case holdupDeasserted => exact flushedLaw_of_mode (by dsimp only; split <;> simp_all)
  case sealAge l h =>
    exact flushedLaw_choice (flushedLaw_gain hs rfl (.set rfl fun hl => (sealOrFlag_holdsWork _ _).trans hl))
  case timeout l n v rest h =>
    have hmode : s.mode ≠ .flushed := not_flushed_of_outstanding hs (outstanding_of_takeDue h)
    exact flushedLaw_timeoutUnit hmode
  case residency l h => exact flushedLaw_gain hs rfl (.set (l := l) rfl id)
  case writeClassified w h hm hp => exact flushedLaw_of_mode (by simp [hm])
  case relocClassified x h hm hp => exact flushedLaw_of_mode (by simp [hm])
  case groupWrite a g l h =>
    exact flushedLaw_choice (flushedLaw_gain (s := s.takeFront) hs (by simp) (noWorkGained_storeGroup a g l))
  case drain a l h => exact flushedLaw_requestDrain (s := s.takeFront) a hs
  case stop a l h => exact flushedLaw_requestStop (s := s.takeFront) a hs
  case clear a l h =>
    exact flushedLaw_gain (s := s.takeFront) hs (by simp) (noWorkGained_requestClear a)
  case softReset a h => exact flushedLaw_of_mode (by simp)
  case resultOk l v rest b i _ h => exact flushedLaw_choice (flushedLaw_settleUnit _ (hmatched h))
  case resultFail l v rest b i _ h => exact flushedLaw_choice (flushedLaw_failUnit (by simpa using hmatched h))
  case resultAborted l v rest b i _ h => exact flushedLaw_choice (flushedLaw_abortUnit (hmatched h))
  case grant x b => exact flushedLaw_choice (flushedLaw_gain hs (by simp) (noWorkGained_takeGrant x b))
  case holdOffFree h hp => exact flushedLaw_choice (flushedLaw_congr hs ⟨rfl, rfl⟩)
  case bSendEnd r h => exact flushedLaw_choice (flushedLaw_congr hs (by simp))
  all_goals exact flushedLaw_congr hs (by simp)

theorem flushedLaw_after (h : After s t) (hs : s.FlushedLaw) : t.FlushedLaw := by
  refine after_keeps (I := State.FlushedLaw) ?latch ?held ?input ?flush ?effect s t h hs
  case latch => exact fun s hs => flushedLaw_congr hs ⟨rfl, rfl⟩
  case held => exact fun s k n _ _ => flushedLaw_of_mode nofun
  case input => exact fun s r w p hs => flushedLaw_congr hs ⟨rfl, rfl⟩
  case flush => exact fun s _ => flushedLaw_beginFlush
  case effect => exact fun s t h hs => flushedLaw_effect h hs

end operations

/-- Settles O57: whatever a command leaves keeps the law, and a tick leaves the mode and every lane's work alone. -/
theorem flushedKept : Obligations.FlushedKept := by
  intro s t hs h
  refine step_keeps (I := State.FlushedLaw) ?queue ?draw (fun _ _ => flushedLaw_after) ?tick hs h
  case queue => exact fun s q hs => flushedLaw_congr hs ⟨rfl, rfl⟩
  case draw => exact fun s n hs => flushedLaw_congr hs ⟨rfl, rfl⟩
  case tick => exact fun s hs => flushedLaw_gain hs rfl noWorkGained_msTick

end Sys2Proof.Proofs
end

section
/-! SUPPORT. The part held in reset, the end of a reset, and SOFT-RESET (R85, R107, R142, R143, R145, R147, R148, R150,
R154). -/

namespace Sys2Proof.Proofs
open Sys2Proof Sys2Proof.Machine Sys2Proof.Laws

/-! ## Held in reset -/

/-- Held in reset, no step of the working part is taken. -/
theorem commit_held {s : State} (h : s.inReset = true) (r : Option State) : commit s r = .next s := by
  simp [commit, h]

/-- Every command but the two resets, the end of a reset and the levels of HOLDUP_N is a step of the working part,
which `commit` takes (log entry 18). -/
theorem exec_commit {c : Instr} (s : State) (hpower : c ≠ .powerOn) (hline : c ≠ .lineReset)
    (hend : c ≠ .resetEnd) (hup : c ≠ .holdupAsserted) (hdown : c ≠ .holdupDeasserted) : ∃ r, exec c s = commit s r := by
  cases c
  case powerOn => exact absurd rfl hpower
  case lineReset => exact absurd rfl hline
  case resetEnd => exact absurd rfl hend
  case holdupAsserted => exact absurd rfl hup
  case holdupDeasserted => exact absurd rfl hdown
  case writeArrival | adminArrival | relocateArrival | resultOk | resultFail | resultAborted | grant | holdOn
    | holdOff =>
    exact ⟨some _, rfl⟩
  all_goals exact ⟨_, rfl⟩

/-- Settles O4: a step of the working part is not taken, a level of HOLDUP_N changes the input alone, and both outputs
follow the reset line. -/
theorem heldInReset : Obligations.HeldInReset := by
  intro s h
  refine ⟨fun c hpower hline hend hup hdown => ?others, ?asserted, ?deasserted, fun hq => ?idle, ?attn, ?flushed⟩
  case others =>
    obtain ⟨r, hr⟩ := exec_commit s hpower hline hend hup hdown
    rw [hr, commit_held h]
  case asserted => exact commit_held (s := { s with holdupPin := true }) h (some _)
  case deasserted => exact commit_held (s := { s with holdupPin := false }) h (some _)
  case idle => simp [step, hq, idleStep, h]
  case attn => simp [State.attn, h]
  case flushed => simp [State.flushedLine, h]

/-! ## The end of a reset -/

section resetEnd
variable {s : State}

/-- Over lanes as a reset leaves them the flush alone can be live (R151). -/
theorem liveSet_of_reset (hlanes : ∀ l, s.lanes.get l = Lane.reset) :
    s.liveSet = if s.mode = .flushing then sourceBit .powerFlush else 0 := by
  have hfault : s.liveLaneFault = false := Table.any_items_false.mpr fun l => by simp [hlanes, Lane.reset]
  have hreserve : s.liveReserveEmpty = false :=
    Table.any_items_false.mpr fun l => by simp [hlanes, Lane.reset, Lane.starved]
  simp [State.liveSet, hfault, hreserve, State.livePowerFlush]

/-- With nothing live no latch is set (R154). -/
theorem latchLevels_of_quiet (hlanes : ∀ l, s.lanes.get l = Lane.reset) (hmode : s.mode ≠ .flushing) :
    s.latchLevels = s := by
  simp [State.latchLevels, liveSet_of_reset hlanes, hmode]

/-- A flush changes no lane that is as a reset leaves it (R143). -/
theorem flush_reset_lanes (U : Nat) (hlanes : ∀ l, s.lanes.get l = Lane.reset) :
    s.lanes.map (Lane.flush U) = s.lanes :=
  Table.ext_get fun l => by rw [Table.get_map, hlanes]; rfl

/-- A flush that begins over such lanes latches POWER-FLUSH if both its enables are yes (R143, R154). -/
theorem flushBegun_of_reset (hlanes : ∀ l, s.lanes.get l = Lane.reset) : flushBegun s =
    { s with
      warning := true, mode := .flushing
      latches := s.latches ||| (sourceBit .powerFlush &&& s.settings.enables &&& s.settings.latchEnables) } := by
  rw [flushBegun, flush_reset_lanes _ hlanes, State.latchLevels, liveSet_of_reset (by exact hlanes), if_pos rfl,
    BitVec.and_assoc]
  rfl

/-- An idle B-link transmitter with no control record has nothing to choose over such lanes (R86). -/
theorem transmitterChoice_of_reset (hlanes : ∀ l, s.lanes.get l = Lane.reset) (hidle : s.bLink.sending = none)
    (hcontrol : s.bLink.control = []) : transmitterChoice s = s := by
  obtain ⟨_, _, hnothing, _⟩ := transmitterChooses s
  exact hnothing hidle hcontrol (.inr fun l => hlanes l ▸ not_issuable_reset)

/-- Nor does a step that ends there set a latch (R154). -/
theorem latched_choice_of_reset (hlanes : ∀ l, s.lanes.get l = Lane.reset) (hidle : s.bLink.sending = none)
    (hcontrol : s.bLink.control = []) (hmode : s.mode ≠ .flushing) : (transmitterChoice s).latchLevels = s := by
  rw [transmitterChoice_of_reset hlanes hidle hcontrol, latchLevels_of_quiet hlanes hmode]

/-- A flush that begins over such lanes, with nothing to send, completes at once and sends FLUSH-DONE (R145). -/
theorem beginFlush_of_reset (hlanes : ∀ l, s.lanes.get l = Lane.reset) (hf : s.fLink = ⟨none, []⟩)
    (hidle : s.bLink.sending = none) (hcontrol : s.bLink.control = []) : (beginFlush s).latchLevels =
    { s with
      warning := true, mode := .flushed, fLink := ⟨some .flushDone, []⟩
      latches := s.latches ||| (sourceBit .powerFlush &&& s.settings.enables &&& s.settings.latchEnables) } := by
  have hwork : ∀ l, (s.lanes.get l).holdsWork = false := fun l => by rw [hlanes]; rfl
  rw [beginFlush_of_idle hwork, flushBegun_of_reset hlanes]
  simp only [State.createF, hf]
  exact latched_choice_of_reset hlanes hidle hcontrol nofun

end resetEnd

/-- Settles O6: nothing is live over the lanes of a reset; a flush of them is complete as it begins, and leaves the
transmitter nothing to choose. -/
theorem resetEnd : Obligations.ResetEnd := by
  intro s h hmode hlanes hf hidle hcontrol
  have hexec : exec .resetEnd s = .next
      (if s.holdupPin then (beginFlush { s with inReset := false, warning := s.holdupPin }).latchLevels
       else State.latchLevels { s with inReset := false, warning := s.holdupPin }) := congrArg _ (if_pos h)
  refine ⟨fun hpin => ?deasserted, fun hpin => ?asserted⟩
  case deasserted =>
    rw [hexec, if_neg (by simp [hpin]), hpin]
    exact congrArg _ (latchLevels_of_quiet hlanes (by simp [hmode]))
  case asserted =>
    rw [hexec, if_pos hpin, hpin]
    exact congrArg _ (beginFlush_of_reset hlanes hf hidle hcontrol)

/-! ## SOFT-RESET -/

/-- Settles O8: the handbacks of every lane are records created in order, and the reply follows the cleared state. -/
theorem softReset : Obligations.SoftReset := by
  intro s id rest h
  refine ⟨s.groups.map fun g => { g with laneMap := Group.noLanes }, handBackAll (s.frontTaken rest),
    fun g => Table.get_map .., handBackAll_eq (s.frontTaken rest), ?_⟩
  have hexec : exec .softReset s = .next (State.latchLevels
      ((softResetState (s.frontTaken rest)).reply ⟨id, .softReset⟩ .ok)) := by
    rw [show exec .softReset s = execSoftReset s from rfl, execSoftReset, onAdmin_next h, commit_some h.1]
  have hcount : min (s.softResets + 1) 65535 = if s.softResets < 65535 then s.softResets + 1 else 65535 := by
    split <;> omega
  rw [hexec, ← hcount]
  rfl

end Sys2Proof.Proofs
end

section
/-! SUPPORT. The source sets bit by bit: which sources are live, latched and of class error, and what every step leaves
of the latches (R151, R153, R154, R155, R173). -/

namespace Sys2Proof.Proofs
open Sys2Proof Sys2Proof.Machine

/-! ## Source sets -/

/-- The sources in the order of the table of R151. -/
def allSources : List Source :=
  [.programFail, .resultTimeout, .laneFault, .unmatchedResult, .reserveEmpty, .grantRefused, .backoff, .tickLost,
    .linkFormat, .holdProtocol, .powerFlush]

theorem allSources_sourceNum : allSources.map sourceNum = List.range 11 := by decide

theorem mem_allSources (x : Source) : x ∈ allSources := by cases x <;> decide

/-- A source's number is one of an 11-bit set (R173). -/
theorem sourceNum_lt (x : Source) : sourceNum x < 11 := by
  have hmem : sourceNum x ∈ allSources.map sourceNum := List.mem_map_of_mem (mem_allSources x)
  simpa [allSources_sourceNum] using hmem

theorem sourceNum_injective : Function.Injective sourceNum := fun x y h =>
  List.inj_on_of_nodup_map (allSources_sourceNum ▸ List.nodup_range) (mem_allSources x) (mem_allSources y) h

/-- Every bit of a source set is a source's (R173). -/
theorem exists_sourceNum {i : Nat} (hi : i < 11) : ∃ x, sourceNum x = i := by
  have hmem : i ∈ allSources.map sourceNum := by simpa [allSources_sourceNum] using hi
  obtain ⟨x, -, hx⟩ := List.mem_map.mp hmem
  exact ⟨x, hx⟩

/-- The set of one source names that source alone. -/
@[simp] theorem sourceBit_getLsbD (x y : Source) : (sourceBit x).getLsbD (sourceNum y) = decide (y = x) := by
  rw [show sourceBit x = BitVec.twoPow 11 (sourceNum x) from rfl, BitVec.getLsbD_twoPow]
  simp [sourceNum_lt, sourceNum_injective.eq_iff, eq_comm]

theorem errorSources_getLsbD (x : Source) :
    errorSources.getLsbD (sourceNum x) = decide (x ∈ [Source.resultTimeout, .laneFault, .linkFormat]) := by
  simp [errorSources, Bool.or_assoc]

/-- A source set is empty unless it names a source. -/
theorem sourceSet_ne_zero {v : BitVec 11} : v ≠ 0 ↔ ∃ x, v.getLsbD (sourceNum x) = true := by
  refine ⟨fun hv => ?named, ?nonzero⟩
  case named =>
    by_contra! hnone
    refine hv (BitVec.eq_of_getLsbD_eq fun i hi => ?_)
    obtain ⟨x, rfl⟩ := exists_sourceNum hi
    simpa using hnone x
  case nonzero =>
    rintro ⟨x, hx⟩ rfl
    simp at hx

/-! ## Live sources -/

/-- A level source that is live, in the words of the claims (R151). -/
def LiveSource (s : State) (x : Source) : Prop :=
  (x = .laneFault ∧ ∃ l, (s.lanes.get l).state = .fault)
    ∨ (x = .reserveEmpty ∧ ∃ l, (s.lanes.get l).state = .opening
        ∨ (((s.lanes.get l).state = .opened ∨ (s.lanes.get l).state = .draining)
            ∧ (s.lanes.get l).current = none ∧ (s.lanes.get l).reserve = []))
    ∨ (x = .powerFlush ∧ s.mode = .flushing)

section latches
variable {s t : State}

theorem liveLaneFault_iff : s.liveLaneFault = true ↔ ∃ l, (s.lanes.get l).state = .fault :=
  Table.any_items.trans (by simp)

theorem liveReserveEmpty_iff : s.liveReserveEmpty = true ↔ ∃ l, (s.lanes.get l).state = .opening
    ∨ (((s.lanes.get l).state = .opened ∨ (s.lanes.get l).state = .draining)
        ∧ (s.lanes.get l).current = none ∧ (s.lanes.get l).reserve = []) :=
  Table.any_items.trans (by simp [Lane.starved, and_assoc])

theorem livePowerFlush_iff : s.livePowerFlush = true ↔ s.mode = .flushing := by simp [State.livePowerFlush]

/-- The live set names exactly the level sources that are live. -/
theorem liveSet_getLsbD (x : Source) : s.liveSet.getLsbD (sourceNum x) = true ↔ LiveSource s x := by
  have hbit : ∀ (b : Bool) (y : Source),
      (if b then sourceBit y else 0).getLsbD (sourceNum x) = true ↔ x = y ∧ b = true := by
    intro b y; cases b <;> simp
  rw [LiveSource, ← liveLaneFault_iff, ← liveReserveEmpty_iff, ← livePowerFlush_iff]
  simp only [State.liveSet, BitVec.getLsbD_or, Bool.or_eq_true, hbit, or_assoc]

/-! ## The latches -/

theorem latchable_getLsbD (x : Source) : s.latchable.getLsbD (sourceNum x) = true ↔
    s.settings.enables.getLsbD (sourceNum x) = true ∧ s.settings.latchEnables.getLsbD (sourceNum x) = true := by
  simp [State.latchable]

/-- A raise sets the latch of its source alone, and only under both enables (R153). -/
theorem raise_getLsbD (x y : Source) : (s.raise x).latches.getLsbD (sourceNum y) = true ↔
    s.latches.getLsbD (sourceNum y) = true ∨ (y = x ∧ s.settings.enables.getLsbD (sourceNum x) = true
      ∧ s.settings.latchEnables.getLsbD (sourceNum x) = true) := by
  simp only [State.raise_latches, BitVec.getLsbD_or, BitVec.getLsbD_and, Bool.or_eq_true, Bool.and_eq_true,
    sourceBit_getLsbD, decide_eq_true_eq, latchable_getLsbD]
  refine or_congr_right (and_congr_right ?_)
  rintro rfl
  rfl

/-- The end of a step sets the latches of the live sources, and only under both enables (R154). -/
theorem latchLevels_getLsbD (x : Source) : s.latchLevels.latches.getLsbD (sourceNum x) = true ↔
    s.latches.getLsbD (sourceNum x) = true ∨ (LiveSource s x ∧ s.settings.enables.getLsbD (sourceNum x) = true
      ∧ s.settings.latchEnables.getLsbD (sourceNum x) = true) := by
  simp only [State.latchLevels_latches, BitVec.getLsbD_or, BitVec.getLsbD_and, Bool.or_eq_true, Bool.and_eq_true,
    liveSet_getLsbD, latchable_getLsbD]

/-! ## The summaries and ATTN_N -/

theorem attentionSet_getLsbD (x : Source) : s.attentionSet.getLsbD (sourceNum x) = true ↔
    s.settings.enables.getLsbD (sourceNum x) = true
      ∧ (s.latches.getLsbD (sourceNum x) = true ∨ LiveSource s x) := by
  simp only [State.attentionSet, BitVec.getLsbD_or, BitVec.getLsbD_and, Bool.or_eq_true, Bool.and_eq_true,
    liveSet_getLsbD]

theorem errorSummary_iff : s.errorSummary = true ↔ ∃ x ∈ [Source.resultTimeout, .laneFault, .linkFormat],
    s.attentionSet.getLsbD (sourceNum x) = true := by
  simp only [State.errorSummary, bne_iff_ne, sourceSet_ne_zero, BitVec.getLsbD_and, Bool.and_eq_true,
    errorSources_getLsbD, decide_eq_true_eq, and_comm]

theorem warningSummary_iff : s.warningSummary = true ↔ ∃ x ∉ [Source.resultTimeout, .laneFault, .linkFormat],
    s.attentionSet.getLsbD (sourceNum x) = true := by
  simp only [State.warningSummary, bne_iff_ne, sourceSet_ne_zero, BitVec.getLsbD_and, BitVec.getLsbD_not,
    Bool.and_eq_true, Bool.not_eq_true', decide_eq_true_eq, decide_eq_false_iff_not, sourceNum_lt, true_and,
    errorSources_getLsbD, and_comm]

/-- Every source is of class warning or of class error, so that ATTN_N follows the whole attention set (R151, R155). -/
theorem attn_iff : s.attn = true ↔ s.inReset = false ∧ ∃ x, s.attentionSet.getLsbD (sourceNum x) = true := by
  simp only [State.attn, Bool.and_eq_true, Bool.not_eq_true', Bool.or_eq_true, warningSummary_iff, errorSummary_iff]
  refine and_congr_right fun _ => ⟨?_, fun ⟨x, hx⟩ => ?_⟩
  · rintro (⟨x, -, hx⟩ | ⟨x, -, hx⟩) <;> exact ⟨x, hx⟩
  · by_cases hclass : x ∈ [Source.resultTimeout, .laneFault, .linkFormat]
    · exact .inr ⟨x, hclass, hx⟩
    · exact .inl ⟨x, hclass, hx⟩

/-! ## Every step keeps the law -/

theorem latchLaw_iff : s.LatchLaw ↔ (s.inReset = false → ∀ x, LiveSource s x →
    s.settings.enables.getLsbD (sourceNum x) = true → s.settings.latchEnables.getLsbD (sourceNum x) = true →
    s.latches.getLsbD (sourceNum x) = true) := Iff.rfl

/-- A step that ends by latching the live sources meets the law, whatever it did before (R154). -/
theorem latchLaw_latchLevels (s : State) : s.latchLevels.LatchLaw :=
  latchLaw_iff.mpr fun _ x hlive he hl => (latchLevels_getLsbD x).mpr (.inr ⟨hlive, he, hl⟩)

theorem latchLaw_of_held (h : s.inReset = true) : s.LatchLaw := fun hr => by simp [h] at hr

theorem latchLaw_after (h : After s t) (hs : s.LatchLaw) : t.LatchLaw := by
  cases h with
  | same => exact hs
  | powerOn | lineReset => exact latchLaw_of_held rfl
  | start | startFlush | effect => exact latchLaw_latchLevels _
  | pin b hr => exact latchLaw_of_held hr

/-- A millisecond tick makes no source live. -/
theorem liveSource_msTick (x : Source) : LiveSource (msTick s) x ↔ LiveSource s x := by
  simp [LiveSource, msTick, Lane.tick]

end latches

/-- Settles O59: every step that changes lanes, mode or settings ends by latching the live sources, or leaves the part
held in reset; a tick makes no source live and clears no latch. -/
theorem latchesKept : Obligations.LatchesKept := by
  intro s t hs h
  refine step_keeps (I := State.LatchLaw) ?queue ?draw (fun _ _ => latchLaw_after) ?tick hs h
  case queue => exact fun s q hs => hs
  case draw => exact fun s n hs => hs
  case tick => exact fun s hs hr x hlive => hs hr x ((liveSource_msTick x).mp hlive)

/-- Settles O48: each set of sources read at a source's own number. -/
theorem attnAndLatches : Obligations.AttnAndLatches := by
  intro s live hlive
  obtain rfl : live = LiveSource s := funext fun x => propext (hlive x)
  refine ⟨allSources_sourceNum, ?attn, ?warning, ?error, raise_getLsbD, latchLevels_getLsbD⟩
  case attn => simp only [attn_iff, attentionSet_getLsbD]
  case warning => simp only [warningSummary_iff, attentionSet_getLsbD]
  case error => simp only [errorSummary_iff, attentionSet_getLsbD]

end Sys2Proof.Proofs
end

section
/-! SUPPORT. The condition and capture requests, and the taking of a capture (R156, R157, R159, R160). -/

namespace Sys2Proof.Proofs
open Sys2Proof Sys2Proof.Machine Sys2Proof.Laws

section requests
variable {s : State} {id : BitVec 16} {rest : List FrontRec}

/-- A step over an ADMIN that is next, which its request makes due. -/
theorem commit_onAdmin {a : Admin} {t : State} (h : s.FrontIsNext (.admin a) rest)
    {f : Admin → State → Option State} (hf : f a (s.frontTaken rest) = some t) :
    commit s (onAdmin s f) = .next t.latchLevels := by
  rw [onAdmin_next h, hf, commit_some h.1]

theorem exec_conditionRead (h : s.FrontIsNext (.admin ⟨id, .conditionRead⟩) rest) : exec .conditionRead s =
    .next (State.latchLevels ((s.frontTaken rest).createF (.adminReply id .ok (.conditions s.conditionReport)))) :=
  commit_onAdmin h rfl

theorem exec_conditionClear_badValue {x : BitVec 16} (h : s.FrontIsNext (.admin ⟨id, .conditionClear x⟩) rest)
    (hx : 2048 ≤ x.toNat) : exec .conditionClear s =
      .next (State.latchLevels ((s.frontTaken rest).createF (.adminReply id .badValue .none))) :=
  commit_onAdmin h (if_neg (Nat.not_lt.mpr hx))

theorem exec_conditionClear_ok {x : BitVec 16} (h : s.FrontIsNext (.admin ⟨id, .conditionClear x⟩) rest)
    (hx : x.toNat < 2048) : exec .conditionClear s =
      .next (State.latchLevels ((clearLatches (x.setWidth 11) (s.frontTaken rest)).createF
        (.adminReply id .ok (.latches (clearLatches (x.setWidth 11) (s.frontTaken rest)).latches)))) := by
  rw [← BitVec.ofNat_toNat]
  exact commit_onAdmin h (if_pos hx)

/-- The live level sources latch again as the named latches are cleared (R157). -/
theorem clearLatches_eq (x : BitVec 11) : clearLatches x s =
    { s with latches := (s.latches &&& ~~~x) ||| (s.liveSet &&& s.latchable) } := rfl

theorem exec_captureTake (h : s.FrontIsNext (.admin ⟨id, .captureTake⟩) rest) : exec .captureTake s =
    .next (State.latchLevels (State.createF { s.frontTaken rest with captures := s.captures.tail, captureLost := false }
      (.adminReply id .ok (.capture s.captures.head? s.captureLost)))) :=
  commit_onAdmin h rfl

theorem takeCapture_lost (h : 2 ≤ s.captures.length) (k : CaptureKind) (l : LaneId) (u : Issued) :
    takeCapture k l u s = { s with captureLost := true } := if_neg (Nat.not_lt.mpr h)

theorem takeCapture_joins (h : s.captures.length < 2) (k : CaptureKind) (l : LaneId) (u : Issued) :
    takeCapture k l u s = { s with captures := s.captures
      ++ [⟨k, l, u.block, u.index, u.attempt, firstStream u.entries, s.time⟩] } := if_pos h

end requests

/-- Settles O47: each request answers from the state that has taken it, in which what it reports stands unchanged. -/
theorem conditionsAndCaptures : Obligations.ConditionsAndCaptures := by
  rintro s _ id rest rfl
  refine ⟨exec_conditionRead, fun x h => ⟨exec_conditionClear_badValue h, ?clears⟩, exec_captureTake,
    fun k l u => ⟨fun h => takeCapture_lost h k l u, ?joins⟩⟩
  case clears =>
    rintro hx _ rfl
    rw [exec_conditionClear_ok h hx, clearLatches_eq]
    rfl
  case joins =>
    intro x es h hu
    rw [takeCapture_joins h, hu]
    rfl

end Sys2Proof.Proofs
end

section
/-! SUPPORT. The arrivals of the three queued records, and malformed records (R162, R163, R164, R165). -/

namespace Sys2Proof.Proofs
open Sys2Proof Sys2Proof.Machine Sys2Proof.Laws

/-! ## The bodies behind the kind codes -/

theorem parseRecord_write (body : List Byte) :
    parseRecord .front (1 :: body) = (parseWrite body).map .write := rfl

theorem parseRecord_admin (body : List Byte) :
    parseRecord .front (2 :: body) = (parseAdmin body).map .admin := rfl

theorem parseRecord_relocate (body : List Byte) :
    parseRecord .back (0x43 :: body) = (parseRelocate body).map .relocate := rfl

section arrivals
variable {s : State} {body : List Byte}

/-! ## A record joins its queue -/

/-- A record with room in the front inbound queue joins it, and FHOLD follows its marks (R163, R164). -/
theorem offerFront_joins (h : s.frontQueue.length < 256) (r : FrontRec) (full : State → State) :
    offerFront r full s = { s with
      frontQueue := s.frontQueue ++ [r]
      fhold := if s.fhold then decide (255 - s.frontQueue.length < 32)
        else decide (255 - s.frontQueue.length ≤ 16) } := by
  have hfree : 256 - (s.frontQueue.length + 1) = 255 - s.frontQueue.length := by omega
  rw [offerFront, if_pos h, fholdAfter, hfree]

/-- A record that finds the front inbound queue full is answered (R163). -/
theorem offerFront_full (h : 256 ≤ s.frontQueue.length) (r : FrontRec) (full : State → State) :
    offerFront r full s = full s := if_neg (Nat.not_lt.mpr h)

/-! ## The three arrivals -/

theorem exec_writeArrival (hs : s.inReset = false) {w : WriteRec} (h : parseWrite body = some w) :
    exec (.writeArrival body) s = .next (State.latchLevels (offerFront (.write w)
      (fun t => (t.createF (.backoff w.tag .queueFull)).raise .backoff) s)) := by
  rw [show exec (.writeArrival body) s = execWriteArrival body s from rfl, execWriteArrival, h, commit_some hs]

theorem exec_adminArrival (hs : s.inReset = false) {a : Admin} (h : parseAdmin body = some a) :
    exec (.adminArrival body) s = .next (State.latchLevels (offerFront (.admin a) (fun t => t.reply a .full) s)) := by
  rw [show exec (.adminArrival body) s = execAdminArrival body s from rfl, execAdminArrival, h, commit_some hs]

theorem exec_relocateArrival (hs : s.inReset = false) {x : RelocateRec} (h : parseRelocate body = some x) :
    exec (.relocateArrival body) s = .next (State.latchLevels
      (if s.relocQueue.length < 64 then { s with relocQueue := s.relocQueue ++ [x] }
       else (s.createB (.relocBackoff x.tag .queueFull)).raise .backoff)) := by
  rw [show exec (.relocateArrival body) s = execRelocateArrival body s from rfl, execRelocateArrival, h,
    commit_some hs]

end arrivals

/-- Settles O45: the two front arrivals offer their record to the one queue, and each queue has room or is full. -/
theorem arrivals : Obligations.Arrivals := by
  intro s body hs
  refine ⟨fun c r hc => ?front, fun x hx => ?reloc⟩
  case front =>
    rcases hc with ⟨rfl, w, hw, rfl⟩ | ⟨rfl, a, ha, rfl⟩
    · have hparse : parseWrite body = some w := by simpa using (parseRecord_write body).symm.trans hw
      rw [exec_writeArrival hs hparse]
      exact ⟨fun h => by rw [offerFront_joins h], fun h => by rw [offerFront_full h]⟩
    · have hparse : parseAdmin body = some a := by simpa using (parseRecord_admin body).symm.trans ha
      rw [exec_adminArrival hs hparse]
      exact ⟨fun h => by rw [offerFront_joins h], fun h => by rw [offerFront_full h]; rfl⟩
  case reloc =>
    have hparse : parseRelocate body = some x := by simpa using (parseRecord_relocate body).symm.trans hx
    rw [exec_relocateArrival hs hparse]
    exact ⟨fun h => by rw [if_pos h], fun h => by rw [if_neg (Nat.not_lt.mpr h)]⟩

/-- Settles O46: bytes that parse as no record are looked at no further. -/
theorem malformedRecords : Obligations.MalformedRecords := by
  intro s body bytes link c hs hc
  have hraise : commit s (some (s.raise .linkFormat)) = .next (State.latchLevels (s.raise .linkFormat)) :=
    commit_some hs _
  rw [← hraise]
  rcases hc with ⟨rfl, h⟩ | ⟨rfl, h⟩ | ⟨rfl, h⟩ | ⟨rfl, h⟩
  · have hparse : parseWrite body = none := by simpa using (parseRecord_write body).symm.trans h
    rw [show exec (.writeArrival body) s = execWriteArrival body s from rfl, execWriteArrival, hparse]
  · have hparse : parseAdmin body = none := by simpa using (parseRecord_admin body).symm.trans h
    rw [show exec (.adminArrival body) s = execAdminArrival body s from rfl, execAdminArrival, hparse]
  · have hparse : parseRelocate body = none := by simpa using (parseRecord_relocate body).symm.trans h
    rw [show exec (.relocateArrival body) s = execRelocateArrival body s from rfl, execRelocateArrival, hparse]
  · rw [show exec (.malformedRecord link bytes) s = execMalformedRecord link bytes s from rfl, execMalformedRecord, h]

end Sys2Proof.Proofs
end

section
/-! SUPPORT. Numbers as bytes, and every inbound record read back from its layout and from no other bytes
(R161, R162, R173). -/

namespace Sys2Proof.Proofs
open Sys2Proof Sys2Proof.Machine

/-! ## Numbers as bytes -/

@[simp] theorem length_leBytes (n v : Nat) : (leBytes n v).length = n := by
  induction n generalizing v with
  | zero => rfl
  | succ n ih => simp [leBytes, ih]

@[simp] theorem drop_leBytes {n k : Nat} (h : n ≤ k) (v : Nat) : (leBytes n v).drop k = [] :=
  List.drop_eq_nil_of_le (by simpa using h)

@[simp] theorem leBytes_one_toNat (b : Byte) : leBytes 1 b.toNat = [b] := by simp [leBytes]

/-- A number that fits its bytes is read back from them. -/
theorem leNat_leBytes {n v : Nat} (h : v < 256 ^ n) : leNat (leBytes n v) = v := by
  induction n generalizing v with
  | zero => simp [leBytes, leNat, Nat.lt_one_iff.mp h]
  | succ n ih =>
    have hdiv : v / 256 < 256 ^ n := Nat.div_lt_of_lt_mul (by rwa [pow_succ'] at h)
    simp only [leBytes, leNat, BitVec.toNat_ofNat, ih hdiv]
    omega

/-- Bytes are the layout of the number they spell. -/
theorem leBytes_leNat {n : Nat} {bs : List Byte} (h : bs.length = n) : leBytes n (leNat bs) = bs := by
  subst h
  induction bs with
  | nil => rfl
  | cons b bs ih =>
    have hb : b.toNat < 256 := b.isLt
    have hlow : BitVec.ofNat 8 (b.toNat + 256 * leNat bs) = b := BitVec.eq_of_toNat_eq (by simp [Nat.mod_eq_of_lt hb])
    have hhigh : (b.toNat + 256 * leNat bs) / 256 = leNat bs := by omega
    simp only [List.length_cons, leBytes, leNat, hlow, hhigh, ih]

theorem leNat_lt (bs : List Byte) : leNat bs < 256 ^ bs.length := by
  induction bs with
  | nil => simp [leNat]
  | cons b bs ih =>
    have hb := b.isLt
    simp only [leNat, List.length_cons, pow_succ']
    omega

/-- A word is read back from its bytes. -/
theorem ofNat_leNat_leBytes {w : Nat} (n : Nat) (x : BitVec w) (hw : w = 8 * n) :
    BitVec.ofNat w (leNat (leBytes n x.toNat)) = x := by
  subst hw
  have hx : x.toNat < 256 ^ n := by simpa [pow_mul] using x.isLt
  rw [leNat_leBytes hx, BitVec.ofNat_toNat, BitVec.setWidth_eq]

/-- Bytes are the layout of the word they spell. -/
theorem leBytes_ofNat_leNat {n w : Nat} {bs : List Byte} (h : bs.length = n) (hw : w = 8 * n) :
    leBytes n (BitVec.ofNat w (leNat bs)).toNat = bs := by
  have hlt : leNat bs < 2 ^ w := by simpa [hw, ← h, pow_mul] using leNat_lt bs
  rw [BitVec.toNat_ofNat, Nat.mod_eq_of_lt hlt, leBytes_leNat h]

theorem fieldBelow_eq_some {n v : Nat} {x : Fin n} : fieldBelow n v = some x ↔ v = x.val := by
  unfold fieldBelow
  split
  · simp [Fin.ext_iff]
  · simp only [reduceCtorEq, false_iff]
    omega

/-- A field of at most a byte is read back from its byte. -/
theorem fieldBelow_mod {n : Nat} (h : n ≤ 256) (x : Fin n) : fieldBelow n (x.val % 256) = some x :=
  fieldBelow_eq_some.mpr (by omega)

/-- A field is read back from bytes that are wide enough for it. -/
theorem fieldBelow_leBytes {n k : Nat} (h : n ≤ 256 ^ k) (x : Fin n) :
    fieldBelow n (leNat (leBytes k x.val)) = some x :=
  fieldBelow_eq_some.mpr (leNat_leBytes (x.isLt.trans_le h))

theorem splitBytes_eq_some {n : Nat} {bs xs ys : List Byte} :
    splitBytes n bs = some (xs, ys) ↔ xs.length = n ∧ bs = xs ++ ys := by
  induction n, bs using splitBytes.induct generalizing xs with
  | case1 bs => cases xs <;> simp [splitBytes]
  | case2 n => cases xs <;> simp [splitBytes]
  | case3 n b bs ih =>
    cases xs with
    | nil => simp [splitBytes]
    | cons x xs =>
      have hcons : splitBytes (n + 1) (b :: bs) = some (x :: xs, ys) ↔ b = x ∧ splitBytes n bs = some (xs, ys) := by
        simp [splitBytes, and_left_comm]
      rw [hcons, ih]
      simp [and_left_comm]

/-! ## Codes -/

theorem laneAction_ofCode {v : Nat} {a : LaneAction} : LaneAction.ofCode v = some a ↔ v = a.code := by
  cases a <;> grind [LaneAction.ofCode, LaneAction.code]

theorem resultOutcome_ofCode {v : Nat} {o : ResultOutcome} : ResultOutcome.ofCode v = some o ↔ v = o.code := by
  cases o <;> grind [ResultOutcome.ofCode, ResultOutcome.code]

/-! ## WRITE and RELOCATE, and the lists they and a TABLE-WRITE carry -/

/-- A well-formed WRITE is read back from its bytes (R52). -/
theorem parseWrite_layoutWrite {w : WriteRec} (h1 : 1 ≤ w.length) (h32 : w.length ≤ 32) :
    parseWrite (layoutWrite w) = some w := by
  have hbytes : layoutWrite w = BitVec.ofNat 8 w.tenant.val :: BitVec.ofNat 8 w.hint.val :: BitVec.ofNat 8 w.length
      :: (leBytes 2 w.tag.val ++ (leBytes 6 w.lba.toNat ++ leBytes 4 w.handle.toNat)) := by
    simp [layoutWrite, leBytes]
  have hhint := fieldBelow_mod (by decide) w.hint
  have htag := fieldBelow_leBytes (k := 2) (by decide) w.tag
  have hlength : w.length % 256 = w.length := by omega
  have hlba := ofNat_leNat_leBytes 6 w.lba rfl
  have hhandle := ofNat_leNat_leBytes 4 w.handle rfl
  simp [hbytes, parseWrite, hhint, htag, hlength, hlba, hhandle, h1, h32, List.drop_append]

/-- The bytes of a WRITE are its layout, and its length is 1 to 32 (R52, R162). -/
theorem layoutWrite_of_parseWrite {bs : List Byte} {w : WriteRec} (h : parseWrite bs = some w) :
    layoutWrite w = bs ∧ 1 ≤ w.length ∧ w.length ≤ 32 := by
  revert h
  fun_cases parseWrite bs <;> intro h <;> cases h
  case case1 b0 b1 b2 rest hrest hint tag htag hhint hlength =>
    have hlba : ((rest.drop 2).take 6).length = 6 := by simp [hrest]
    have hhandle : (rest.drop 8).length = 4 := by simp [hrest]
    refine ⟨?_, hlength⟩
    simp only [layoutWrite]
    rw [← fieldBelow_eq_some.mp hhint, ← fieldBelow_eq_some.mp htag, leBytes_ofNat_leNat hlba rfl,
      leBytes_ofNat_leNat hhandle rfl]
    have hwhole : rest.take 2 ++ ((rest.drop 2).take 6 ++ rest.drop 8) = rest := by
      rw [show rest.drop 8 = (rest.drop 2).drop 6 from (List.drop_drop (i := 6) (j := 2)).symm,
        List.take_append_drop, List.take_append_drop]
    simp [leBytes_leNat, hrest, hwhole]

theorem length_layoutFields (l : List (Byte × BitVec 64)) : (layoutFields l).length = 9 * l.length := by
  induction l with
  | nil => rfl
  | cons p l ih => simp [layoutFields, ih]; omega

/-- The pairs of a field-select list are read back from their bytes (R167). -/
theorem parseFields_layoutFields (l : List (Byte × BitVec 64)) : parseFields l.length (layoutFields l) = some l := by
  induction l with
  | nil => rfl
  | cons p l ih =>
    have hsplit : splitBytes 9 (layoutFields (p :: l)) = some (p.1 :: leBytes 8 p.2.toNat, layoutFields l) :=
      splitBytes_eq_some.mpr ⟨by simp, by simp [layoutFields]⟩
    simp [parseFields, hsplit, ih, ofNat_leNat_leBytes 8 p.2 rfl]

/-- The bytes of a field-select list are its layout (R167). -/
theorem layoutFields_of_parseFields {m : Nat} {bs : List Byte} {l : List (Byte × BitVec 64)}
    (h : parseFields m bs = some l) : layoutFields l = bs ∧ l.length = m := by
  induction m generalizing bs l with
  | zero =>
    obtain ⟨rfl, rfl⟩ : bs = [] ∧ l = [] := by simpa [parseFields, eq_comm] using h
    exact ⟨rfl, rfl⟩
  | succ m ih =>
    unfold parseFields at h
    split at h
    case h_2 => cases h
    case h_1 f v rest hsplit =>
      obtain ⟨tail, htail, rfl⟩ := Option.map_eq_some_iff.mp h
      obtain ⟨hlen, rfl⟩ := splitBytes_eq_some.mp hsplit
      obtain ⟨rfl, rfl⟩ := ih htail
      have hv : v.length = 8 := by simpa using hlen
      simp only [layoutFields, leBytes_ofNat_leNat hv]
      simp

/-- The sectors of a RELOCATE are read back from their bytes (R57). -/
theorem parseSectors_layoutSectors (l : List (Lba × Handle)) : parseSectors l.length (layoutSectors l) = some l := by
  induction l with
  | nil => rfl
  | cons p l ih =>
    have hsplit : splitBytes 10 (layoutSectors (p :: l))
        = some (leBytes 6 p.1.toNat ++ leBytes 4 p.2.toNat, layoutSectors l) :=
      splitBytes_eq_some.mpr ⟨by simp, by simp [layoutSectors]⟩
    simp [parseSectors, hsplit, ih, ofNat_leNat_leBytes 6 p.1 rfl, ofNat_leNat_leBytes 4 p.2 rfl]

/-- The bytes of a RELOCATE's sectors are their layout (R57). -/
theorem layoutSectors_of_parseSectors {c : Nat} {bs : List Byte} {l : List (Lba × Handle)}
    (h : parseSectors c bs = some l) : layoutSectors l = bs ∧ l.length = c := by
  induction c generalizing bs l with
  | zero =>
    obtain ⟨rfl, rfl⟩ : bs = [] ∧ l = [] := by simpa [parseSectors, eq_comm] using h
    exact ⟨rfl, rfl⟩
  | succ c ih =>
    unfold parseSectors at h
    split at h
    case h_2 => cases h
    case h_1 sector rest hsplit =>
      obtain ⟨tail, htail, rfl⟩ := Option.map_eq_some_iff.mp h
      obtain ⟨hlen, rfl⟩ := splitBytes_eq_some.mp hsplit
      obtain ⟨rfl, rfl⟩ := ih htail
      have hlba : (sector.take 6).length = 6 := by simp [hlen]
      have hhandle : (sector.drop 6).length = 4 := by simp [hlen]
      simp only [layoutSectors, leBytes_ofNat_leNat hlba, leBytes_ofNat_leNat hhandle]
      simp

/-- A well-formed RELOCATE is read back from its bytes (R57). -/
theorem parseRelocate_layoutRelocate {x : RelocateRec} (h1 : 1 ≤ x.sectors.length) (h8 : x.sectors.length ≤ 8) :
    parseRelocate (layoutRelocate x) = some x := by
  have htag := fieldBelow_leBytes (k := 2) (by decide) x.tag
  have hstream := fieldBelow_leBytes (k := 2) (by decide) x.stream
  have hcount : x.sectors.length % 256 = x.sectors.length := by omega
  simp only [leBytes] at htag hstream
  simp [parseRelocate, layoutRelocate, leBytes, htag, hstream, hcount, h1, h8, parseSectors_layoutSectors]

/-- The bytes of a RELOCATE are its layout, and its count is 1 to 8 (R57, R162). -/
theorem layoutRelocate_of_parseRelocate {bs : List Byte} {x : RelocateRec} (h : parseRelocate bs = some x) :
    layoutRelocate x = bs ∧ 1 ≤ x.sectors.length ∧ x.sectors.length ≤ 8 := by
  revert h
  fun_cases parseRelocate bs <;> intro h
  case case1 t0 t1 s0 s1 c rest tag stream hstream htag hcount =>
    obtain ⟨sectors, hsectors, rfl⟩ := Option.map_eq_some_iff.mp h
    obtain ⟨rfl, hlen⟩ := layoutSectors_of_parseSectors hsectors
    refine ⟨?_, by simpa [hlen] using hcount⟩
    simp only [layoutRelocate]
    rw [← fieldBelow_eq_some.mp htag, ← fieldBelow_eq_some.mp hstream, hlen]
    simp [leBytes_leNat]
  all_goals cases h

/-! ## ADMIN -/

/-- The operands of a well-formed ADMIN fit the byte that holds their length (R173). -/
theorem operands_length_le {a : Admin} (h : (InRecord.admin a).wellFormed = true) : a.req.operands.length ≤ 247 := by
  obtain ⟨id, req⟩ := a
  cases req with
  | tableWrite code index fields =>
    simp only [InRecord.wellFormed, decide_eq_true_eq] at h
    simp [AdminReq.operands, length_layoutFields]
    omega
  | _ => simp [AdminReq.operands]

/-- A well-formed ADMIN's request is read back from its code and operands (R173). -/
theorem parseRequest_operands {a : Admin} (h : (InRecord.admin a).wellFormed = true) :
    parseRequest a.req.code a.req.operands = some a.req := by
  obtain ⟨id, req⟩ := a
  cases req with
  | tableRead code index =>
    simpa [parseRequest, AdminReq.code, AdminReq.operands, leBytes] using ofNat_leNat_leBytes 2 index rfl
  | tableWrite code index fields =>
    have hcount : fields.length ≤ 27 := by simpa [InRecord.wellFormed] using h
    have hmod : fields.length % 256 = fields.length := by omega
    have hindex := ofNat_leNat_leBytes 2 index rfl
    simp only [leBytes] at hindex
    simp [parseRequest, AdminReq.code, AdminReq.operands, leBytes, hmod, hcount, parseFields_layoutFields, hindex,
      -BitVec.ofNat_toNat]
  | laneRequest lane action =>
    have hlane := fieldBelow_mod (by decide) lane
    have haction : LaneAction.ofCode (action.code % 256) = some action := by cases action <;> rfl
    simp [parseRequest, AdminReq.code, AdminReq.operands, hlane, haction]
  | conditionClear sources =>
    simpa [parseRequest, AdminReq.code, AdminReq.operands, leBytes] using ofNat_leNat_leBytes 2 sources rfl
  | conditionRead | captureTake | softReset => rfl

/-- The code and operands read as a request are that request's own, and its list keeps the rule of form (R162). -/
theorem operands_of_parseRequest {code : Nat} {ops : List Byte} {r : AdminReq} (h : parseRequest code ops = some r)
    (id : BitVec 16) : r.code = code ∧ r.operands = ops ∧ (InRecord.admin ⟨id, r⟩).wellFormed = true := by
  revert h
  fun_cases parseRequest code ops <;> intro h
  case case1 hcode t i0 i1 =>
    cases h
    exact ⟨hcode.symm, congrArg (t :: ·) (leBytes_ofNat_leNat rfl rfl), rfl⟩
  case case3 hcode t i0 i1 m rest hm =>
    obtain ⟨fields, hfields, rfl⟩ := Option.map_eq_some_iff.mp h
    obtain ⟨rfl, hlen⟩ := layoutFields_of_parseFields hfields
    have hindex : leBytes 2 (BitVec.ofNat 16 (leNat [i0, i1])).toNat = [i0, i1] := leBytes_ofNat_leNat rfl rfl
    refine ⟨hcode.symm, ?_, by simpa [InRecord.wellFormed, hlen] using hm⟩
    simp only [AdminReq.operands, hindex, hlen]
    simp
  case case6 hcode l a lane action haction hlane =>
    cases h
    refine ⟨hcode.symm, ?_, rfl⟩
    simp [AdminReq.operands, ← fieldBelow_eq_some.mp hlane, ← laneAction_ofCode.mp haction]
  case case11 hcode s0 s1 =>
    cases h
    exact ⟨hcode.symm, leBytes_ofNat_leNat rfl rfl, rfl⟩
  case case9 hcode | case13 hcode | case15 hcode =>
    cases h
    exact ⟨hcode.symm, rfl, rfl⟩
  all_goals cases h

/-- A well-formed ADMIN is read back from its bytes (R65). -/
theorem parseAdmin_layoutAdmin {a : Admin} (h : (InRecord.admin a).wellFormed = true) :
    parseAdmin (layoutAdmin a) = some a := by
  have hlen := operands_length_le h
  have hmod : a.req.operands.length % 256 = a.req.operands.length := by omega
  have hcode : a.req.code % 256 = a.req.code := by cases a.req <;> rfl
  have hid := ofNat_leNat_leBytes 2 a.id rfl
  simp only [leBytes] at hid
  simp [parseAdmin, layoutAdmin, leBytes, hmod, hcode, parseRequest_operands h, hid, -BitVec.ofNat_toNat]

/-- The bytes of an ADMIN are its layout, and it is well formed (R162). -/
theorem layoutAdmin_of_parseAdmin {bs : List Byte} {a : Admin} (h : parseAdmin bs = some a) :
    layoutAdmin a = bs ∧ (InRecord.admin a).wellFormed = true := by
  revert h
  fun_cases parseAdmin bs <;> intro h
  case case1 c i0 i1 n ops hops =>
    obtain ⟨req, hreq, rfl⟩ := Option.map_eq_some_iff.mp h
    obtain ⟨hcode, rfl, hwf⟩ := operands_of_parseRequest hreq (BitVec.ofNat 16 (leNat [i0, i1]))
    refine ⟨?_, hwf⟩
    have hid : leBytes 2 (BitVec.ofNat 16 (leNat [i0, i1])).toNat = [i0, i1] := leBytes_ofNat_leNat rfl rfl
    simp only [layoutAdmin, hid, hcode, hops]
    simp
  all_goals cases h

/-! ## Every inbound record -/

/-- A RESULT is read back from its bytes (R122). -/
theorem parseResult_layoutRecord (lane : LaneField) (o : ResultOutcome) (b : BlockAddr) (i : Fin 2048) :
    parseResult (BitVec.ofNat 8 lane.val :: BitVec.ofNat 8 o.code :: (leBytes 4 b.toNat ++ leBytes 2 i.val))
      = some (.result lane o b i) := by
  have hlane := fieldBelow_mod (by decide) lane
  have houtcome : ResultOutcome.ofCode (o.code % 256) = some o := by cases o <;> rfl
  have hblock := ofNat_leNat_leBytes 4 b rfl
  have hindex := fieldBelow_leBytes (k := 2) (by decide) i
  simp only [leBytes] at hblock hindex
  simp [parseResult, leBytes, hlane, houtcome, hblock, hindex, -BitVec.ofNat_toNat]

/-- The bytes of a RESULT are its layout (R122). -/
theorem layoutRecord_of_parseResult {bs : List Byte} {r : InRecord} (h : parseResult bs = some r) :
    ∃ lane o b i, r = .result lane o b i ∧ layoutRecord r = 0x41 :: bs := by
  revert h
  fun_cases parseResult bs <;> intro h <;> cases h
  case case1 l o b0 b1 b2 b3 i0 i1 lane outcome index hindex houtcome hlane =>
    refine ⟨lane, outcome, _, index, rfl, ?_⟩
    have hblock : leBytes 4 (BitVec.ofNat 32 (leNat [b0, b1, b2, b3])).toNat = [b0, b1, b2, b3] :=
      leBytes_ofNat_leNat rfl rfl
    rw [layoutRecord, ← fieldBelow_eq_some.mp hlane, ← resultOutcome_ofCode.mp houtcome, hblock,
      ← fieldBelow_eq_some.mp hindex]
    simp [leBytes_leNat]

/-- A GRANT is read back from its bytes (R116). -/
theorem parseGrant_layoutRecord (lane : LaneField) (b : BlockAddr) :
    parseGrant (BitVec.ofNat 8 lane.val :: leBytes 4 b.toNat) = some (.grant lane b) := by
  have hlane := fieldBelow_mod (by decide) lane
  have hblock := ofNat_leNat_leBytes 4 b rfl
  simp only [leBytes] at hblock
  simp [parseGrant, leBytes, hlane, hblock, -BitVec.ofNat_toNat]

/-- The bytes of a GRANT are its layout (R116). -/
theorem layoutRecord_of_parseGrant {bs : List Byte} {r : InRecord} (h : parseGrant bs = some r) :
    ∃ lane b, r = .grant lane b ∧ layoutRecord r = 0x42 :: bs := by
  revert h
  fun_cases parseGrant bs <;> intro h
  case case1 l b0 b1 b2 b3 =>
    obtain ⟨lane, hlane, rfl⟩ := Option.map_eq_some_iff.mp h
    have hblock : leBytes 4 (BitVec.ofNat 32 (leNat [b0, b1, b2, b3])).toNat = [b0, b1, b2, b3] :=
      leBytes_ofNat_leNat rfl rfl
    refine ⟨lane, _, rfl, ?_⟩
    rw [layoutRecord, ← fieldBelow_eq_some.mp hlane, hblock]
    simp
  all_goals cases h

/-- Every well-formed inbound record is read back from its bytes, on its own link (R161, R173). -/
theorem parseRecord_layoutRecord {r : InRecord} (h : r.wellFormed = true) :
    parseRecord r.link (layoutRecord r) = some r := by
  cases r with
  | write w =>
    obtain ⟨h1, h32⟩ : 1 ≤ w.length ∧ w.length ≤ 32 := by simpa [InRecord.wellFormed] using h
    exact congrArg (Option.map _) (parseWrite_layoutWrite h1 h32)
  | admin a => exact congrArg (Option.map _) (parseAdmin_layoutAdmin h)
  | result lane o b i => exact parseResult_layoutRecord lane o b i
  | grant lane b => exact parseGrant_layoutRecord lane b
  | relocate x =>
    obtain ⟨h1, h8⟩ : 1 ≤ x.sectors.length ∧ x.sectors.length ≤ 8 := by simpa [InRecord.wellFormed] using h
    exact congrArg (Option.map _) (parseRelocate_layoutRelocate h1 h8)
  | holdOn | holdOff => rfl

/-- A byte is the word of the number that it reads as. -/
theorem kind_of_toNat {k : Byte} {n : Nat} (h : k.toNat = n) : BitVec.ofNat 8 n = k := by
  rw [← h, BitVec.ofNat_toNat, BitVec.setWidth_eq]

/-- Settles O50: each kind's body is the layout of what is read of it. -/
theorem bytesReadWhole : Obligations.BytesReadWhole := by
  intro link bytes r h
  revert h
  fun_cases parseRecord link bytes <;> intro h
  case case1 k body hk =>
    obtain rfl := kind_of_toNat hk
    obtain ⟨w, hw, rfl⟩ := Option.map_eq_some_iff.mp h
    obtain ⟨rfl, h1, h32⟩ := layoutWrite_of_parseWrite hw
    exact ⟨rfl, rfl, by simp [InRecord.wellFormed, h1, h32]⟩
  case case2 k body _ hk =>
    obtain rfl := kind_of_toNat hk
    obtain ⟨a, ha, rfl⟩ := Option.map_eq_some_iff.mp h
    obtain ⟨rfl, hwf⟩ := layoutAdmin_of_parseAdmin ha
    exact ⟨rfl, rfl, hwf⟩
  case case4 k body hk =>
    obtain rfl := kind_of_toNat hk
    obtain ⟨lane, o, b, i, rfl, hlayout⟩ := layoutRecord_of_parseResult h
    exact ⟨hlayout, rfl, rfl⟩
  case case5 k body _ hk =>
    obtain rfl := kind_of_toNat hk
    obtain ⟨lane, b, rfl, hlayout⟩ := layoutRecord_of_parseGrant h
    exact ⟨hlayout, rfl, rfl⟩
  case case6 k body _ _ hk =>
    obtain rfl := kind_of_toNat hk
    obtain ⟨x, hx, rfl⟩ := Option.map_eq_some_iff.mp h
    obtain ⟨rfl, h1, h8⟩ := layoutRelocate_of_parseRelocate hx
    exact ⟨rfl, rfl, by simp [InRecord.wellFormed, h1, h8]⟩
  case case7 k _ _ _ hk | case9 k _ _ _ _ hk =>
    obtain rfl := kind_of_toNat hk
    cases h
    exact ⟨rfl, rfl, rfl⟩
  all_goals cases h

end Sys2Proof.Proofs
end

section
/-! SUPPORT. The records of both links as fields laid end to end, and where each field stands (R161, R173). -/

namespace Sys2Proof.Proofs
open Sys2Proof Sys2Proof.Machine

/-! ## Fields laid end to end -/

/-- The bytes of fields laid end to end, each as wide as it says. -/
def spell (fields : List (Nat × Nat × Nat)) : List Byte := fields.flatMap fun f => leBytes f.2.1 f.2.2

/-- The fields stand end to end from one offset to another, and each value fits its width. -/
def Packed : Nat → List (Nat × Nat × Nat) → Nat → Prop
  | start, [], stop => start = stop
  | start, f :: fields, stop => f.1 = start ∧ f.2.2 < 256 ^ f.2.1 ∧ Packed (start + f.2.1) fields stop

theorem packed_append {a b c : Nat} {xs ys : List (Nat × Nat × Nat)} (hxs : Packed a xs b) (hys : Packed b ys c) :
    Packed a (xs ++ ys) c := by
  induction xs generalizing a with
  | nil => exact hxs ▸ hys
  | cons f xs ih =>
    obtain ⟨hat, hfits, hrest⟩ := hxs
    exact ⟨hat, hfits, ih hrest⟩

/-- Items of one width, each packed in its own place, are packed together. -/
theorem packed_mapIdx {α : Type} {start w : Nat} {xs : List α} {g : Nat → α → List (Nat × Nat × Nat)}
    (h : ∀ k, ∀ x ∈ xs, Packed (start + w * k) (g k x) (start + w * k + w)) :
    Packed start (xs.mapIdx g).flatten (start + w * xs.length) := by
  induction xs generalizing start g with
  | nil => simp [Packed]
  | cons x xs ih =>
    have hrest := ih (start := start + w) (g := fun k => g (k + 1)) fun k y hy => by
      have hplace : start + w + w * k = start + w * (k + 1) := by ring
      rw [hplace]
      exact h (k + 1) y (.tail _ hy)
    have hstop : start + w + w * xs.length = start + w * (xs.length + 1) := by ring
    rw [List.mapIdx_cons, List.flatten_cons, List.length_cons, ← hstop]
    exact packed_append (h 0 x (.head _)) hrest

theorem spell_append (xs ys : List (Nat × Nat × Nat)) : spell (xs ++ ys) = spell xs ++ spell ys := List.flatMap_append

theorem spell_mapIdx {α : Type} (xs : List α) {g : Nat → α → List (Nat × Nat × Nat)} {f : α → List Byte}
    (h : ∀ k x, spell (g k x) = f x) : spell (xs.mapIdx g).flatten = xs.flatMap f := by
  induction xs generalizing g with
  | nil => rfl
  | cons x xs ih => rw [List.mapIdx_cons, List.flatten_cons, spell_append, h, ih fun k => h (k + 1), List.flatMap_cons]

/-- Fields packed from the first byte on are laid out as they say (R173). -/
theorem layout_spell {size : Nat} {fields : List (Nat × Nat × Nat)} (h : Packed 0 fields size) :
    Layout (spell fields) size fields := by
  suffices hafter : ∀ (before : List Byte), Packed before.length fields size →
      (before ++ spell fields).length = size
        ∧ ∀ f ∈ fields, leNat (((before ++ spell fields).drop f.1).take f.2.1) = f.2.2 from hafter [] h
  clear h
  induction fields with
  | nil => exact fun before h => ⟨by simpa [spell, Packed] using h, nofun⟩
  | cons f fields ih =>
    rintro before ⟨hat, hfits, hrest⟩
    obtain ⟨hsize, hfields⟩ := ih (before ++ leBytes f.2.1 f.2.2) (by simpa using hrest)
    have hbytes : before ++ leBytes f.2.1 f.2.2 ++ spell fields = before ++ spell (f :: fields) := by simp [spell]
    rw [hbytes] at hsize hfields
    refine ⟨hsize, List.forall_mem_cons.mpr ⟨?_, hfields⟩⟩
    rw [hat, List.drop_left, spell, List.flatMap_cons, List.take_left' (length_leBytes ..), leNat_leBytes hfits]

/-- A record is laid out as its fields say when they spell its bytes and are packed; fields whose widths and offsets are
numerals are packed by arithmetic. -/
theorem layout_of_spell {bs : List Byte} {size : Nat} {fields : List (Nat × Nat × Nat)} (hbytes : bs = spell fields)
    (hpacked : Packed 0 fields size := by simp only [Packed, true_and, and_true]; omega) : Layout bs size fields :=
  hbytes ▸ layout_spell hpacked

/-- A code listed for a constructor is the model's, and fits its byte. -/
theorem code_of_mem {α : Type} {f : α → Nat} {codes : List (α × Nat)} {x : α} {code : Nat} (h : (x, code) ∈ codes)
    (hcodes : ∀ p ∈ codes, p.2 = f p.1 ∧ p.2 < 256) : code = f x ∧ code < 256 := hcodes _ h

/-! ## Inbound records -/

section inbound
variable (id : BitVec 16)

theorem layout_write (w : WriteRec) (h : w.length ≤ 32) : Layout (layoutRecord (.write w)) 16
    [(0, 1, 0x01), (1, 1, w.tenant.val), (2, 1, w.hint.val), (3, 1, w.length), (4, 2, w.tag.val),
      (6, 6, w.lba.toNat), (12, 4, w.handle.toNat)] :=
  layout_of_spell (by simp [layoutRecord, layoutWrite, spell, leBytes])

theorem layout_tableRead (code : Byte) (index : BitVec 16) :
    Layout (layoutRecord (.admin ⟨id, .tableRead code index⟩)) 8
      [(0, 1, 0x02), (1, 1, 1), (2, 2, id.toNat), (4, 1, 3), (5, 1, code.toNat), (6, 2, index.toNat)] :=
  layout_of_spell (by simp [layoutRecord, layoutAdmin, AdminReq.code, AdminReq.operands, spell, leBytes])

theorem layoutFields_eq_spell (fields : List (Byte × BitVec 64)) : layoutFields fields =
    spell (fields.mapIdx fun k p => [(9 + 9 * k, 1, p.1.toNat), (10 + 9 * k, 8, p.2.toNat)]).flatten := by
  rw [spell_mapIdx fields (f := fun p => p.1 :: leBytes 8 p.2.toNat) (by simp [spell])]
  induction fields with
  | nil => rfl
  | cons p fields ih => rw [layoutFields, ih, List.flatMap_cons]

theorem layout_tableWrite (code : Byte) (index : BitVec 16) (fields : List (Byte × BitVec 64))
    (h : fields.length ≤ 27) :
    Layout (layoutRecord (.admin ⟨id, .tableWrite code index fields⟩)) (9 + 9 * fields.length)
      ([(0, 1, 0x02), (1, 1, 2), (2, 2, id.toNat), (4, 1, 4 + 9 * fields.length), (5, 1, code.toNat),
        (6, 2, index.toNat), (8, 1, fields.length)]
        ++ (fields.mapIdx fun k p => [(9 + 9 * k, 1, p.1.toNat), (10 + 9 * k, 8, p.2.toNat)]).flatten) := by
  have hops : (AdminReq.tableWrite code index fields).operands.length = 4 + 9 * fields.length := by
    simp [AdminReq.operands, length_layoutFields]; omega
  refine layout_of_spell ?bytes (packed_append (b := 9) ?head (packed_mapIdx fun k p _ => ?pair))
  case bytes =>
    rw [spell_append, ← layoutFields_eq_spell, layoutRecord, layoutAdmin, hops]
    simp [AdminReq.code, AdminReq.operands, spell, leBytes]
  all_goals
    simp only [Packed, true_and, and_true]
    omega

theorem layout_laneRequest {action : LaneAction} {code : Nat}
    (h : (action, code) ∈ [(LaneAction.drain, 1), (.stop, 2), (.clear, 3)]) (lane : LaneField) :
    Layout (layoutRecord (.admin ⟨id, .laneRequest lane action⟩)) 7
      [(0, 1, 0x02), (1, 1, 3), (2, 2, id.toNat), (4, 1, 2), (5, 1, lane.val), (6, 1, code)] := by
  obtain ⟨rfl, hfits⟩ := code_of_mem (f := LaneAction.code) h (by decide)
  exact layout_of_spell (by simp [layoutRecord, layoutAdmin, AdminReq.code, AdminReq.operands, spell, leBytes])

theorem layout_conditionClear (sources : BitVec 16) : Layout (layoutRecord (.admin ⟨id, .conditionClear sources⟩)) 7
    [(0, 1, 0x02), (1, 1, 5), (2, 2, id.toNat), (4, 1, 2), (5, 2, sources.toNat)] :=
  layout_of_spell (by simp [layoutRecord, layoutAdmin, AdminReq.code, AdminReq.operands, spell, leBytes])

theorem layout_bareRequest {req : AdminReq} {code : Nat}
    (h : (req, code) ∈ [(AdminReq.conditionRead, 4), (.captureTake, 6), (.softReset, 7)]) :
    Layout (layoutRecord (.admin ⟨id, req⟩)) 5 [(0, 1, 0x02), (1, 1, code), (2, 2, id.toNat), (4, 1, 0)] := by
  obtain ⟨rfl, hfits⟩ := code_of_mem (f := AdminReq.code) h (by decide)
  have hbare : req.operands = [] :=
    (by decide : ∀ p ∈ [(AdminReq.conditionRead, 4), (.captureTake, 6), (.softReset, 7)], p.1.operands = []) _ h
  exact layout_of_spell (by simp [layoutRecord, layoutAdmin, hbare, spell, leBytes])

theorem layout_result {outcome : ResultOutcome} {code : Nat}
    (h : (outcome, code) ∈ [(ResultOutcome.ok, 0), (.fail, 1), (.aborted, 2)]) (lane : LaneField) (b : BlockAddr)
    (index : Fin 2048) : Layout (layoutRecord (.result lane outcome b index)) 9
      [(0, 1, 0x41), (1, 1, lane.val), (2, 1, code), (3, 4, b.toNat), (7, 2, index.val)] := by
  obtain ⟨rfl, hfits⟩ := code_of_mem (f := ResultOutcome.code) h (by decide)
  exact layout_of_spell (by simp [layoutRecord, spell, leBytes])

theorem layout_grant (lane : LaneField) (b : BlockAddr) :
    Layout (layoutRecord (.grant lane b)) 6 [(0, 1, 0x42), (1, 1, lane.val), (2, 4, b.toNat)] :=
  layout_of_spell (by simp [layoutRecord, spell, leBytes])

theorem layoutSectors_eq_spell (sectors : List (Lba × Handle)) : layoutSectors sectors =
    spell (sectors.mapIdx fun k p => [(6 + 10 * k, 6, p.1.toNat), (12 + 10 * k, 4, p.2.toNat)]).flatten := by
  rw [spell_mapIdx sectors (f := fun p => leBytes 6 p.1.toNat ++ leBytes 4 p.2.toNat) (by simp [spell])]
  induction sectors with
  | nil => rfl
  | cons p sectors ih => rw [layoutSectors, ih, List.flatMap_cons]

theorem layout_relocate (x : RelocateRec) (h : x.sectors.length ≤ 8) :
    Layout (layoutRecord (.relocate x)) (6 + 10 * x.sectors.length)
      ([(0, 1, 0x43), (1, 2, x.tag.val), (3, 2, x.stream.val), (5, 1, x.sectors.length)]
        ++ (x.sectors.mapIdx fun k p => [(6 + 10 * k, 6, p.1.toNat), (12 + 10 * k, 4, p.2.toNat)]).flatten) := by
  refine layout_of_spell ?bytes (packed_append (b := 6) ?head (packed_mapIdx fun k p _ => ?sector))
  case bytes =>
    rw [spell_append, ← layoutSectors_eq_spell]
    simp [layoutRecord, layoutRelocate, spell, leBytes]
  all_goals
    simp only [Packed, true_and, and_true]
    omega

end inbound

/-! ## Outbound records -/

theorem outcomeCode_lt (failed : Bool) : outcomeCode failed < 256 := by cases failed <;> decide

theorem layout_done (tag : FrontTag) (failed : Bool) :
    Layout (layoutF (.done tag failed)) 4 [(0, 1, 0x81), (1, 2, tag.val), (3, 1, outcomeCode failed)] := by
  have hfits := outcomeCode_lt failed
  exact layout_of_spell (by simp [layoutF, spell, leBytes])

theorem layout_relocDone (tag : RelocTag) (failed : Bool) :
    Layout (layoutB (.relocDone tag failed)) 4 [(0, 1, 0xC4), (1, 2, tag.val), (3, 1, outcomeCode failed)] := by
  have hfits := outcomeCode_lt failed
  exact layout_of_spell (by simp [layoutB, spell, leBytes])

section backoff
variable {why : BackoffReason} {code : Nat} (h : (why, code) ∈ [(BackoffReason.power, 0), (.tagInUse, 1),
  (.closed, 2), (.noLane, 3), (.noRoom, 4), (.queueFull, 5)])
include h

theorem layout_backoff (tag : FrontTag) :
    Layout (layoutF (.backoff tag why)) 4 [(0, 1, 0x82), (1, 2, tag.val), (3, 1, code)] := by
  obtain ⟨rfl, hfits⟩ := code_of_mem (f := backoffCode) h (by decide)
  exact layout_of_spell (by simp [layoutF, spell, leBytes])

theorem layout_relocBackoff (tag : RelocTag) :
    Layout (layoutB (.relocBackoff tag why)) 4 [(0, 1, 0xC5), (1, 2, tag.val), (3, 1, code)] := by
  obtain ⟨rfl, hfits⟩ := code_of_mem (f := backoffCode) h (by decide)
  exact layout_of_spell (by simp [layoutB, spell, leBytes])

end backoff

/-- A list of one-field items, as the flattening of one list each. -/
theorem mapIdx_eq_flatten {α β : Type} (xs : List α) (f : Nat → α → β) :
    xs.mapIdx f = (xs.mapIdx fun k x => [f k x]).flatten := by
  induction xs generalizing f with
  | nil => rfl
  | cons x xs ih => rw [List.mapIdx_cons, List.mapIdx_cons, List.flatten_cons, ih]; rfl

theorem layout_adminReply {status : Status} {code : Nat} (h : (status, code) ∈ [(Status.ok, 0), (.badTable, 1),
      (.badIndex, 2), (.badValue, 3), (.readOnly, 4), (.conflict, 5), (.state, 6), (.tooSoon, 7), (.full, 8)])
    (id : BitVec 16) (data : ReplyData) (hdata : 8 * (replyItems data).length < 65536) :
    Layout (layoutF (.adminReply id status data)) (6 + 8 * (replyItems data).length)
      ([(0, 1, 0x83), (1, 2, id.toNat), (3, 1, code), (4, 2, 8 * (replyItems data).length)]
        ++ (replyItems data).mapIdx fun k x => (6 + 8 * k, 8, x.toNat)) := by
  obtain ⟨rfl, hfits⟩ := code_of_mem (f := statusCode) h (by decide)
  have hlen : ((replyItems data).flatMap fun x => leBytes 8 x.toNat).length = 8 * (replyItems data).length := by
    simp [List.length_flatMap, mul_comm]
  rw [mapIdx_eq_flatten]
  refine layout_of_spell ?bytes (packed_append (b := 6) ?head (packed_mapIdx fun k x _ => ?item))
  case bytes =>
    rw [spell_append, spell_mapIdx (replyItems data) (f := fun x => leBytes 8 x.toNat) (by simp [spell]), layoutF, hlen]
    simp [spell, leBytes]
  all_goals
    simp only [Packed, true_and, and_true]
    omega

/-- The fields of entry `k` of a PROGRAM (R173). -/
def entryFields (k : Nat) : Entry → List (Nat × Nat × Nat)
  | .pad => [(10 + 16 * k, 16, 1)]
  | .sector x => [(10 + 16 * k, 2, match x.tag with | .front _ => 0 | .reloc _ => 2), (12 + 16 * k, 2, x.stream.val),
      (14 + 16 * k, 6, x.lba.toNat), (20 + 16 * k, 4, x.handle.toNat), (24 + 16 * k, 2, 0)]

theorem spell_entryFields (k : Nat) (e : Entry) : spell (entryFields k e) = layoutEntry e := by
  match e with
  | .pad | .sector ⟨.front _, _, _, _, _⟩ | .sector ⟨.reloc _, _, _, _, _⟩ =>
    simp [spell, entryFields, layoutEntry, leBytes, List.replicate]

theorem packed_entryFields (k : Nat) (e : Entry) : Packed (10 + 16 * k) (entryFields k e) (10 + 16 * k + 16) := by
  match e with
  | .pad | .sector ⟨.front _, _, _, _, _⟩ | .sector ⟨.reloc _, _, _, _, _⟩ =>
    simp only [entryFields, Packed, true_and, and_true]
    omega

theorem layout_program (l : LaneId) (b : BlockAddr) (index attempt size : Nat) (es : List Entry)
    (hindex : index < 2048) (hattempt : attempt ≤ 3) (hsize : size ≤ 48) :
    Layout (layoutB (.program l b index attempt size es)) (10 + 16 * es.length)
      ([(0, 1, 0xC1), (1, 1, l.val), (2, 4, b.toNat), (6, 2, index), (8, 1, attempt), (9, 1, size)]
        ++ (es.mapIdx fun k e => entryFields k e).flatten) := by
  refine layout_of_spell ?bytes (packed_append (b := 10) ?head (packed_mapIdx fun k e _ => packed_entryFields k e))
  case bytes =>
    rw [spell_append, spell_mapIdx es spell_entryFields]
    simp [layoutB, spell, leBytes]
  case head =>
    simp only [Packed, true_and, and_true]
    omega

theorem layout_want (l : LaneId) (count : Nat) (h : count ≤ 8) :
    Layout (layoutB (.want l count)) 3 [(0, 1, 0xC2), (1, 1, l.val), (2, 1, count)] :=
  layout_of_spell (by simp [layoutB, spell, leBytes])

theorem layout_giveback {why : GivebackReason} {code : Nat} (h : (why, code) ∈ [(GivebackReason.unused, 0),
      (.partlyUsed, 1), (.bad, 2), (.faulted, 3), (.refused, 4), (.duplicate, 5), (.full, 6), (.reset, 7)])
    (l : LaneField) (b : BlockAddr) (index : Option Nat) (hindex : ∀ i, index = some i → i < 2048) :
    Layout (layoutB (.giveback l b why index)) 9
      [(0, 1, 0xC3), (1, 1, l.val), (2, 1, code), (3, 4, b.toNat), (7, 2, index.getD 0)] := by
  obtain ⟨rfl, hfits⟩ := code_of_mem (f := givebackCode) h (by decide)
  have hgiven : index.getD 0 < 2048 := by
    cases index with
    | none => simp
    | some i => exact hindex i rfl
  exact layout_of_spell (by simp [layoutB, spell, leBytes])

/-! ## Reply items -/

theorem optItem_eq_absentOr : optItem = absentOr := by
  funext o
  cases o <;> rfl

/-- The items of a table are its records in order. -/
theorem items_eq_map_get {α : Type} {n : Nat} (t : Table α n) : t.items = (List.finRange n).map t.get := by
  refine List.ext_getElem (by simp [t.size]) fun k _ _ => ?_
  simp [Table.get]

theorem groupItems_eq (d : Group) : groupItems d =
    ([0, 1, 2, 3].map fun c => absentOr ((d.laneMap.get c).map Fin.val))
      ++ [match d.fallback with | .colderFirst => 0 | .hotterFirst => 1, BitVec.ofNat 64 d.sealAge] := by
  have hclasses : List.finRange 4 = [0, 1, 2, 3] := rfl
  rw [groupItems, items_eq_map_get, hclasses, optItem_eq_absentOr]
  cases d.fallback <;> rfl

theorem streamItems_eq (d : Stream) : streamItems d =
    [if d.admitted then 1 else 0, BitVec.ofNat 64 d.group.val, if d.track then 1 else 0,
      absentOr (d.pinned.map Fin.val), absentOr (d.relocClass.map Fin.val),
      BitVec.ofNat 64 d.current.val, BitVec.ofNat 64 d.dwell, BitVec.ofNat 64 d.rate,
      BitVec.ofNat 64 d.count, BitVec.ofNat 64 d.written.toNat] := by
  rw [streamItems, optItem_eq_absentOr]
  rfl

/-- Settles O49: a record's fields spell its bytes and are packed from the first byte on, so that each stands at its
offset; an inbound record is read back kind by kind. -/
theorem recordReadBack : Obligations.RecordReadBack := by
  refine ⟨fun _ => parseRecord_layoutRecord, layout_write, layout_tableRead, layout_tableWrite,
    fun _ _ h id lane => layout_laneRequest id h lane, layout_conditionClear, fun _ _ h id => layout_bareRequest id h,
    fun _ _ => layout_result, layout_grant, layout_relocate, rfl, rfl, layout_done, layout_relocDone,
    fun _ _ h => ⟨layout_backoff h, layout_relocBackoff h⟩, fun _ _ => layout_adminReply, layout_program, layout_want,
    ?giveback, rfl, rfl, rfl, streamItems_eq, groupItems_eq, fun _ _ => ⟨rfl, rfl, rfl, rfl, rfl⟩, fun _ => rfl⟩
  case giveback =>
    intro why code h l b index hindex
    cases index <;> exact layout_giveback h l b _ hindex

end Sys2Proof.Proofs
end

section
/-! SUPPORT. One step of the machine: the command that it runs, and the queue behind that command, which no command
changes (log entries 1 and 3). -/

namespace Sys2Proof.Proofs
open Sys2Proof Sys2Proof.Machine

/-- Settles O1: a step takes the queue's head off and runs it. -/
theorem stepRunsFrontCommand : Obligations.StepRunsFrontCommand := fun c rest s =>
  step_front c rest { s with pending := c :: rest } rfl

/-! ## The queue of commands -/

section queue
variable {s t : State}

/-- No effect places a command in the queue or takes one: an effect sets other fields, or runs operations whose frame
holds the queue. -/
theorem effect_pending (h : Effect s t) : t.pending = s.pending := by
  cases h
  case holdupAsserted | warningTaken | sampleTick | sealAge | timeout | writeClassified | relocClassified | streamWrite
    | streamWriteLate | groupWrite | drain | stop | clear | softReset | resultOk | resultFail | resultAborted | grant
    | holdOffFree | bSendEnd => simp
  all_goals rfl

/-- A reset keeps the queue, which is not the part's, and so does every other outcome of a command (log entry 1). -/
theorem after_pending (h : After s t) : t.pending = s.pending := by
  cases h with
  | same | powerOn | lineReset | start | pin => rfl
  | startFlush => simp
  | effect u _ hu => exact (State.latchLevels_pending u).trans (effect_pending hu)

end queue

/-- Settles O2: every command answers a next state, and that state is one of the outcomes, each with the same queue. -/
theorem everyCommandAnswers : Obligations.EveryCommandAnswers := by
  intro c s
  obtain ⟨t, hexec, hafter⟩ := exec_after c s
  exact ⟨t, hexec, after_pending hafter⟩

end Sys2Proof.Proofs
end
